-- ==== Sys2Proof/Word.lean ====
section
/-! DEFINITION. The units of data the codec handles (spec 00_scope.md R8, R13): bytes, byte sequences, masking keys
and declared payload lengths. -/

namespace Sys2Proof

/-- A byte; bit 7 is the most significant bit (R8, R12). -/
abbrev Byte := BitVec 8

/-- A finite byte sequence; index 0 is first on the wire (R13). -/
abbrev Bytes := List Byte

/-- A masking key: a 32-bit value, four bytes on the wire (R8, R46). -/
abbrev Key := BitVec 32

/-- A declared payload length: "64-bit unsigned" (R8, R32). -/
abbrev Len64 := BitVec 64

end Sys2Proof
end

