-- ==== Sys2Proof/Config.lean ====
section
/-! DEFINITION. What is fixed for an instance of the codec, and the one free value (spec 00_scope.md R7). ROLE is a
register, set by RESET, and is not here. RX_BUF_CAP and DRAIN_POLICY are values of an instance: the State carries them
as data, so that every statement holds for every value of them (log 4). -/

namespace Sys2Proof

/-- R7, R146: whether one SUBMIT extracts every complete frame in the buffer or at most one. -/
inductive DrainPolicy where
  | all
  | one
deriving DecidableEq, Repr

/-- R7: the parameters fixed at bring-up (R213). -/
structure Params where
  /-- RX_BUF_CAP: the capacity of the reassembly buffer in bytes, any natural number (R7, D11). -/
  rxBufCap : Nat
  /-- DRAIN_POLICY (R7, D8). -/
  drainPolicy : DrainPolicy
deriving DecidableEq, Repr

/-- The parameters State.reset takes. DRAIN_POLICY = ALL is "the value for this hardware" (R7, R146).
DESIGN CHOICE (log 4, unsafe): RX_BUF_CAP is OPEN in the spec; 131072 is the value 95_test_vectors.md assumes. -/
def Config.params : Params := { rxBufCap := 131072, drainPolicy := .all }

/-- KEY_SOURCE (R7, R106): the free value drawn by the masked WRAP numbered by its argument, "a free input of the step
with no law". It has no body, so nothing can be proved of its values, nor that two draws of one
instance differ or agree (log 6).
DESIGN CHOICE (log 16, unsafe): it is one constant for all instances, so two instances whose scripts are empty and whose
draw counters are equal, two fresh ones for example, provably draw the same key. The spec does not say so: KEY_SOURCE is
OPEN per instance (R7), instances share no state (R194), and no law links two draws (U4). -/
opaque Config.keySource : Nat → Key

end Sys2Proof
end

