-- ==== Sys2Proof/Syntax.lean ====
section
/-! DEFINITION. The codec's instructions: one constructor for each row of spec/opcode_table.json. The ten rows of
format frame_header are the header decode classes of R75; their arguments are the fields of the header region, ignored
ones included, so that no bit of the encoding is lost. The eight rows of format command are the commands of R72. -/

namespace Sys2Proof

/-- R6, R21: the role of an instance. -/
inductive Role where
  | nonMasking
  | masking
deriving DecidableEq, Repr

/-- One constructor per row of the opcode table. -/
inductive Instr where
  /-- REJECT_FIN_CLEAR (R75 priority 1, R125). -/
  | rejectFinClear (rsv : BitVec 3) (opcode : BitVec 4) (mask : BitVec 1) (len7 : BitVec 7)
  /-- REJECT_OPCODE (R75 priority 2, R126). -/
  | rejectOpcode (rsv : BitVec 3) (opcode : BitVec 4) (mask : BitVec 1) (len7 : BitVec 7)
  /-- REJECT_MASK.NM (R75 priority 3, R127): MASK = 0 in the non-masking role. -/
  | rejectMaskNm (rsv : BitVec 3) (len7 : BitVec 7)
  /-- LEN_EXT64.NM (R75 priority 4, R128). -/
  | lenExt64Nm (rsv : BitVec 3)
  /-- LEN_EXT16.NM (R75 priority 5, R129). -/
  | lenExt16Nm (rsv : BitVec 3) (len16 : BitVec 16) (key : Key)
  /-- LEN_SHORT.NM (R75 priority 6, R129). -/
  | lenShortNm (rsv : BitVec 3) (len7 : BitVec 7) (key : Key)
  /-- REJECT_MASK.M (R75 priority 3, R127): MASK = 1 in the masking role. -/
  | rejectMaskM (rsv : BitVec 3) (len7 : BitVec 7)
  /-- LEN_EXT64.M (R75 priority 4, R128). -/
  | lenExt64M (rsv : BitVec 3)
  /-- LEN_EXT16.M (R75 priority 5, R129). -/
  | lenExt16M (rsv : BitVec 3) (len16 : BitVec 16)
  /-- LEN_SHORT.M (R75 priority 6, R129). -/
  | lenShortM (rsv : BitVec 3) (len7 : BitVec 7)
  /-- RESET (R72 code 0b000, R210). -/
  | reset (role : Role)
  /-- SUBMIT (R72 code 0b001, R140). -/
  | submit (chunk : Bytes)
  /-- WRAP (R72 code 0b010, R100). -/
  | wrap (payload : Bytes)
  /-- MASK_APPLY (R72 code 0b011, R90). -/
  | maskApply (data : Bytes) (key : Key)
  /-- PARSE_HEADER (R72 code 0b100, R120). -/
  | parseHeader (window : Bytes)
  /-- READ_TX_KEY (R72 code 0b101, R170). -/
  | readTxKey
  /-- READ_RX_LAST (R72 code 0b110, R171). -/
  | readRxLast
  /-- RESERVED (R72 code 0b111, R74). -/
  | reserved
deriving DecidableEq, Repr

/-- A command as it stands at the command interface: the 3-bit code CMD of R72 and the operands beside it. A command
reads the operands R72 gives it and no other.
DESIGN CHOICE (log 3, safe): the spec gives each command typed operands and no wire layout for them. -/
structure Command where
  /-- CMD, bits 2:0 of R72. -/
  code : BitVec 3
  /-- `role` of RESET. -/
  role : Role
  /-- `chunk`, `payload`, `data` or `window`. -/
  bytes : Bytes
  /-- `key` of MASK_APPLY. -/
  key : Key
deriving DecidableEq, Repr

end Sys2Proof
end

