-- ==== Sys2Proof/Machine/State.lean ====
section
/-! DEFINITION. The state of one codec instance (spec 10_state.md R20), the values that pass through its command
interface (R73, R123, R180), and the state right after reset (70_reset_and_hazards.md R210, R211). Plain data. -/

namespace Sys2Proof.Machine

/-- The three reasons of the parser's INVALID outcome (R123). -/
inductive FramingReason where
  | finClear
  | badOpcode
  | maskMismatch
deriving DecidableEq, Repr

/-- The parser's outcome (R123). -/
inductive ParseOutcome where
  /-- more bytes are needed before a verdict -/
  | incomplete
  | invalid (reason : FramingReason)
  /-- LEN7 = 127 -/
  | unsupportedLength
  /-- h: header length; n: declared payload length; key: present iff the frame is masked -/
  | parsed (h : Nat) (n : Len64) (key : Option Key)
deriving DecidableEq, Repr

/-- The status codes that are ever returned (R180). -/
inductive Status where
  | ok
  | incomplete
  | framingFinClear
  | framingBadOpcode
  | framingMaskMismatch
  | unsupportedLengthScheme
  | payloadTooLarge
  | refused
deriving DecidableEq, Repr

/-- The conditions RX_FAULT can hold (R23); NONE is `none` in State. -/
inductive RxFault where
  | framing (reason : FramingReason)
  | payloadTooLarge
deriving DecidableEq, Repr

/-- The data of a response, by the table of R72. -/
inductive ResponseData where
  /-- RESET and the reserved code: a status only -/
  | empty
  /-- SUBMIT: the payloads, in stream order (R141) -/
  | payloads (ps : List Bytes)
  /-- WRAP: one wire frame or nothing (R107) -/
  | frame (f : Option Bytes)
  /-- MASK_APPLY -/
  | bytes (b : Bytes)
  /-- PARSE_HEADER -/
  | outcome (r : ParseOutcome)
  /-- READ_TX_KEY: ABSENT or a key -/
  | txKey (k : Option Key)
  /-- READ_RX_LAST: ABSENT or a length, ABSENT or a key -/
  | rxLast (n : Option Len64) (k : Option Key)
deriving DecidableEq, Repr

/-- R73: "Every response carries a 4-bit status code" and the command's data. -/
structure Response where
  data : ResponseData
  status : Status
deriving DecidableEq, Repr

/-- The model's own stops; none of them is a condition of the codec, whose errors are statuses (R186). -/
inductive Fault where
  /-- Raised by memRead when `a + n <= len(RXBUF)` fails (R41). Safe: the model stops; no command reaches it. -/
  | rxRead
  /-- Raised by memAppend when `len(RXBUF) + len(s) <= RX_BUF_CAP` fails (R41). Safe; no command reaches it. -/
  | rxAppend
  /-- Raised by memConsume when `n <= len(RXBUF)` fails (R41). Safe; no command reaches it. -/
  | rxConsume
  /-- Raised by SUBMIT's loop past `len(RXBUF) / 2 + 1` passes (R150). Safe; no command reaches it. -/
  | passBound
deriving DecidableEq, Repr

/-- Refusals. The reserved command code is no refusal of the model: the codec answers it with status REFUSED (R74). -/
inductive Refusal where
  /-- Raised by exec for an instruction without a meaning yet, by its mnemonic. Safe. No arm raises it now. -/
  | notModelled (mnemonic : String)
deriving DecidableEq, Repr

/-- The state of one codec instance: the six registers of R20, then the parameters of R7 that are fixed for the
instance (log 4), then the model's side of the command interface (logs 1, 2, 6). -/
structure State where
  /-- ROLE (R21) -/
  role : Role
  /-- RXBUF, the reassembly buffer, front first (R22) -/
  rxbuf : Bytes
  /-- RX_FAULT; `none` is NONE (R23) -/
  rxFault : Option RxFault
  /-- LAST_TX_KEY; `none` is ABSENT (R24) -/
  lastTxKey : Option Key
  /-- LAST_RX_LEN; `none` is ABSENT (R25) -/
  lastRxLen : Option Len64
  /-- LAST_RX_KEY; `none` is ABSENT (R25) -/
  lastRxKey : Option Key
  /-- RX_BUF_CAP and DRAIN_POLICY (R7) -/
  params : Params
  /-- the draws a deterministic key source will give next, oldest first (R213 step 2); empty: draws are free -/
  keyScript : List Key
  /-- how many free draws have been taken from Config.keySource, which all instances share (log 16) -/
  keyDraws : Nat
  /-- the commands the host will issue, oldest first (R53, R214) -/
  pending : List Command
  /-- the response of the last completed command (R73) -/
  response : Option Response
deriving DecidableEq, Repr

/-- R211: "A model starts every instance in the state RESET gives, for a role taken as an argument." No key has been
drawn, no command is waiting, and no response has been given. -/
def State.resetWith (params : Params) (role : Role) : State where
  role := role
  rxbuf := []
  rxFault := none
  lastTxKey := none
  lastRxLen := none
  lastRxKey := none
  params := params
  keyScript := []
  keyDraws := 0
  pending := []
  response := none

/-- The machine right after reset. DESIGN CHOICE (log 5, unsafe): ROLE has no default; NON_MASKING is taken. -/
def State.reset : State := State.resetWith Config.params .nonMasking

end Sys2Proof.Machine
end

