-- ==== Sys2Proof/Machine/Ops.lean ====
section
/-! DEFINITION. The named operations of R16 over the state: the three accesses to RXBUF (20_memory.md R41), the fault
latch, the response, the key draw, the writes of the diagnostic registers. The codec takes no exception: an error
writes RX_FAULT or nothing and is reported in the response, with no state saved and nothing vectored (R16 `raise`,
R186), and there is no return from it (R188). -/

namespace Sys2Proof.Machine

/-- MemRead(RX, a, n): `RXBUF[a..a+n)`, used only when `a + n <= len(RXBUF)` (R41). -/
def memRead (a n : Nat) (s : State) : Except Fault Bytes :=
  if a + n ≤ s.rxbuf.length then .ok ((s.rxbuf.drop a).take n) else .error .rxRead

/-- `RXBUF <- b`, the write both MemAppend and MemConsume make. -/
def State.setRxbuf (b : Bytes) (s : State) : State := { s with rxbuf := b }

/-- MemAppend(RX, x): `RXBUF <- RXBUF ++ x`, used only when `len(RXBUF) + len(x) <= RX_BUF_CAP` (R41, R42). -/
def memAppend (x : Bytes) (s : State) : Except Fault State :=
  if s.rxbuf.length + x.length ≤ s.params.rxBufCap then .ok (s.setRxbuf (s.rxbuf ++ x)) else .error .rxAppend

/-- MemConsume(RX, n): `RXBUF <- RXBUF[n..)`, used only when `n <= len(RXBUF)` (R41). -/
def memConsume (n : Nat) (s : State) : Except Fault State :=
  if n ≤ s.rxbuf.length then .ok (s.setRxbuf (s.rxbuf.drop n)) else .error .rxConsume

/-- `RX_FAULT <- code` (R23). -/
def State.latch (c : RxFault) (s : State) : State := { s with rxFault := some c }

/-- R144: `LAST_RX_LEN <- some n; LAST_RX_KEY <- key`. -/
def State.recordParsed (n : Len64) (key : Option Key) (s : State) : State :=
  { s with lastRxLen := some n, lastRxKey := key }

/-- R105: `LAST_TX_KEY <- some key`. -/
def State.recordTxKey (key : Key) (s : State) : State := { s with lastTxKey := some key }

/-- `return (data, status)`: the command completes with this response (R16, R73). -/
def State.respond (data : ResponseData) (status : Status) (s : State) : State :=
  { s with response := some { data := data, status := status } }

/-- The 32-bit value the next draw gives: the script's next, else the free value (R106, log 6), which two
instances with equal counters share (log 16). -/
def State.nextKey (s : State) : Key :=
  match s.keyScript with
  | key :: _ => key
  | [] => Config.keySource s.keyDraws

/-- `draw KEY_SOURCE`: the state after the draw of `nextKey` (R16, R106). -/
def State.afterDraw (s : State) : State :=
  match s.keyScript with
  | _ :: rest => { s with keyScript := rest }
  | [] => { s with keyDraws := s.keyDraws + 1 }

end Sys2Proof.Machine
end

