-- ==== Sys2Proof/Machine/Control.lean ====
section
/-! DEFINITION. RESET and the reserved command code (spec 70_reset_and_hazards.md R210, 30_encoding.md R74), and the
diagnostic reads (44_diagnostics.md R170-R173). -/

namespace Sys2Proof.Machine

/-- RESET (R210): every register of R20; no key is drawn and KEY_SOURCE is not touched. -/
def execReset (role : Role) (s : State) : Host.Outcome State Fault Refusal :=
  .next (({ s with role := role, rxbuf := [], rxFault := none, lastTxKey := none, lastRxLen := none,
                   lastRxKey := none } : State).respond .empty .ok)

/-- READ_TX_KEY (R170): `(LAST_TX_KEY, OK)`, in every PHASE (R172). -/
def execReadTxKey (s : State) : Host.Outcome State Fault Refusal := .next (s.respond (.txKey s.lastTxKey) .ok)

/-- READ_RX_LAST (R171): `((LAST_RX_LEN, LAST_RX_KEY), OK)`, in every PHASE (R172). -/
def execReadRxLast (s : State) : Host.Outcome State Fault Refusal :=
  .next (s.respond (.rxLast s.lastRxLen s.lastRxKey) .ok)

/-- The reserved command code 0b111 (R74, R184): "It changes no state and returns status REFUSED". DEDUCED (log 7). -/
def execReserved (s : State) : Host.Outcome State Fault Refusal := .next (s.respond .empty .refused)

end Sys2Proof.Machine
end

