-- ==== Sys2Proof/Machine/MaskCipher.lean ====
section
/-! DEFINITION. MaskCipher: the XOR pad and the command MASK_APPLY (spec 40_mask.md R90-R96). -/

namespace Sys2Proof.Machine

/-- R46, R90: `key_byte(j) = key[31-8j : 24-8j]`, for j in 0..3. -/
def keyByte (key : Key) (j : Nat) : Byte := key.extractLsb' (24 - 8 * j) 8

/-- R95: the pad applied to bytes whose first has index `phase` in the masked payload. -/
def maskFrom (key : Key) : Nat → Bytes → Bytes
  | _, [] => []
  | phase, b :: rest => (b ^^^ keyByte key (phase % 4)) :: maskFrom key (phase + 1) rest

/-- R90: `out[i] = data[i] XOR key_byte(i mod 4)`. Unmasking is the same operation (R91). -/
def maskApply (data : Bytes) (key : Key) : Bytes := maskFrom key 0 data

/-- R67: the payload bytes of a frame whose key is `key`, masked or unmasked iff the frame has one. -/
def maskIfKeyed (key : Option Key) (data : Bytes) : Bytes :=
  match key with
  | some k => maskApply data k
  | none => data

/-- MASK_APPLY (R90): a pure operation; no state is written (R92), the status is OK. -/
def execMaskApply (data : Bytes) (key : Key) (s : State) : Host.Outcome State Fault Refusal :=
  .next (s.respond (.bytes (maskApply data key)) .ok)

end Sys2Proof.Machine
end

