-- ==== Sys2Proof/Machine/Flags.lean ====
section
/-! DEFINITION. The codec has no flags (spec 10_state.md R33). What it has instead: the status code of each response
(60_exceptions.md R180) and the rules that give it. -/

namespace Sys2Proof.Machine

/-- The numbers of R180. -/
def Status.code : Status → BitVec 4
  | .ok => 0x0
  | .incomplete => 0x1
  | .framingFinClear => 0x2
  | .framingBadOpcode => 0x3
  | .framingMaskMismatch => 0x4
  | .unsupportedLengthScheme => 0x5
  | .payloadTooLarge => 0x6
  | .refused => 0x7

/-- R135: `status(INVALID(reason)) = reason`. -/
def FramingReason.status : FramingReason → Status
  | .finClear => .framingFinClear
  | .badOpcode => .framingBadOpcode
  | .maskMismatch => .framingMaskMismatch

/-- R142: the status of a latched SUBMIT is RX_FAULT's code. -/
def RxFault.status : RxFault → Status
  | .framing reason => reason.status
  | .payloadTooLarge => .payloadTooLarge

/-- R135: PARSE_HEADER's status. -/
def ParseOutcome.status : ParseOutcome → Status
  | .incomplete => .incomplete
  | .invalid reason => reason.status
  | .unsupportedLength => .unsupportedLengthScheme
  | .parsed _ _ _ => .ok

end Sys2Proof.Machine
end

