-- ==== Sys2Proof/WellFormed.lean ====
section
/-! DEFINITION. The instructions that have an encoding of their own row: the extra conditions of R75. -/

namespace Sys2Proof

/-- R75's extra conditions. REJECT_OPCODE needs H[11:8] != 0x2; LEN_SHORT needs H[6:0] <= 125. Every other row admits
every value of its fields; a command admits every operand (WRAP of 65536 bytes and more is a command, and fails). -/
def Instr.wf : Instr → Bool
  | .rejectFinClear _ _ _ _ => true
  | .rejectOpcode _ opcode _ _ => opcode != 2#4
  | .rejectMaskNm _ _ => true
  | .lenExt64Nm _ => true
  | .lenExt16Nm _ _ _ => true
  | .lenShortNm _ len7 _ => len7.toNat ≤ 125
  | .rejectMaskM _ _ => true
  | .lenExt64M _ => true
  | .lenExt16M _ _ => true
  | .lenShortM _ len7 => len7.toNat ≤ 125
  | .reset _ => true
  | .submit _ => true
  | .wrap _ => true
  | .maskApply _ _ => true
  | .parseHeader _ => true
  | .readTxKey => true
  | .readRxLast => true
  | .reserved => true

/-- The "role" column of opcode_table.json: the roles in which a header row is tried. A command has no such column and
is accepted in both (R191). -/
def Instr.inRole : Instr → Role → Bool
  | .rejectFinClear _ _ _ _, _ => true
  | .rejectOpcode _ _ _ _, _ => true
  | .rejectMaskNm _ _, role => role = .nonMasking
  | .lenExt64Nm _, role => role = .nonMasking
  | .lenExt16Nm _ _ _, role => role = .nonMasking
  | .lenShortNm _ _ _, role => role = .nonMasking
  | .rejectMaskM _ _, role => role = .masking
  | .lenExt64M _, role => role = .masking
  | .lenExt16M _ _, role => role = .masking
  | .lenShortM _ _, role => role = .masking
  | .reset _, _ => true
  | .submit _, _ => true
  | .wrap _, _ => true
  | .maskApply _ _, _ => true
  | .parseHeader _, _ => true
  | .readTxKey, _ => true
  | .readRxLast, _ => true
  | .reserved, _ => true

/-- Whether the instruction is a frame header (opcode_table.json, format frame_header). -/
def Instr.isHeader : Instr → Bool
  | .rejectFinClear _ _ _ _ => true
  | .rejectOpcode _ _ _ _ => true
  | .rejectMaskNm _ _ => true
  | .lenExt64Nm _ => true
  | .lenExt16Nm _ _ _ => true
  | .lenShortNm _ _ _ => true
  | .rejectMaskM _ _ => true
  | .lenExt64M _ => true
  | .lenExt16M _ _ => true
  | .lenShortM _ _ => true
  | .reset _ => false
  | .submit _ => false
  | .wrap _ => false
  | .maskApply _ _ => false
  | .parseHeader _ => false
  | .readTxKey => false
  | .readRxLast => false
  | .reserved => false

end Sys2Proof
end

