-- ==== Sys2Proof/Decode.lean ====
section
/-! DEFINITION. Decoding and encoding (spec 30_encoding.md). A frame header is read from bytes by the class table of
R75, in the role the receiver has; a command is read from its 3-bit code (R72). Both decoders are total. The parser of
R120 is written apart from this table, in Machine/Parser.lean, as the spec writes it apart. -/

namespace Sys2Proof

/-! ## Fields of the 16-bit header word H = frame[0] ‖ frame[1] (R75) -/

/-- R75: `H = frame[0] ‖ frame[1]`. -/
def headerWord (b0 b1 : Byte) : BitVec 16 := b0 ++ b1

/-- H[14:12] is RSV. -/
def hRsv (h : BitVec 16) : BitVec 3 := h.extractLsb' 12 3

/-- H[11:8] is OPCODE. -/
def hOpcode (h : BitVec 16) : BitVec 4 := h.extractLsb' 8 4

/-- H[7] is MASK. -/
def hMask (h : BitVec 16) : BitVec 1 := h.extractLsb' 7 1

/-- H[6:0] is LEN7. -/
def hLen7 (h : BitVec 16) : BitVec 7 := h.extractLsb' 0 7

/-- R45: LEN16 is big-endian, the more significant byte first. -/
def joinLen16 (b2 b3 : Byte) : BitVec 16 := b2 ++ b3

/-- R46: `key = K0 ‖ K1 ‖ K2 ‖ K3`, K0 first on the wire. -/
def joinKey (k0 k1 k2 k3 : Byte) : Key := k0 ++ k1 ++ k2 ++ k3

/-! ## The class table of R75 -/

/-- The header decode classes, one per row of format frame_header. -/
inductive HeaderClass where
  | rejectFinClear
  | rejectOpcode
  | rejectMaskNm
  | lenExt64Nm
  | lenExt16Nm
  | lenShortNm
  | rejectMaskM
  | lenExt64M
  | lenExt16M
  | lenShortM
deriving DecidableEq, Repr

/-- One row of the table: H matches when `H & care = pattern`, in the row's role, under the row's extra condition. -/
structure HeaderRow where
  cls : HeaderClass
  /-- the "role" column: none is "any" -/
  role : Option Role
  /-- the "match" column -/
  pattern : BitVec 16
  /-- the "mask" column -/
  care : BitVec 16
  /-- the extra condition of REJECT_OPCODE: H[11:8] != 0x2 -/
  opcodeNotBinary : Bool
deriving DecidableEq, Repr

/-- The rows of opcode_table.json of format frame_header, in priority order (R75). LEN_SHORT's condition
H[6:0] <= 125 is "guaranteed by priority: 126 and 127 match rows 5 and 4 first". -/
def headerTable : List HeaderRow := [
  ⟨.rejectFinClear, none, 0x0000, 0x8000, false⟩,
  ⟨.rejectOpcode, none, 0x8000, 0x8000, true⟩,
  ⟨.rejectMaskNm, some .nonMasking, 0x8200, 0x8F80, false⟩,
  ⟨.rejectMaskM, some .masking, 0x8280, 0x8F80, false⟩,
  ⟨.lenExt64Nm, some .nonMasking, 0x82FF, 0x8FFF, false⟩,
  ⟨.lenExt64M, some .masking, 0x827F, 0x8FFF, false⟩,
  ⟨.lenExt16Nm, some .nonMasking, 0x82FE, 0x8FFF, false⟩,
  ⟨.lenExt16M, some .masking, 0x827E, 0x8FFF, false⟩,
  ⟨.lenShortNm, some .nonMasking, 0x8280, 0x8F80, false⟩,
  ⟨.lenShortM, some .masking, 0x8200, 0x8F80, false⟩]

/-- Whether a row matches the header word in a role. -/
def HeaderRow.hits (r : HeaderRow) (role : Role) (h : BitVec 16) : Bool :=
  decide (r.role = none ∨ r.role = some role) && decide (h &&& r.care = r.pattern) &&
    (!r.opcodeNotBinary || decide (hOpcode h ≠ 2#4))

/-- R75: "Classes are tried in priority order, and the first class that matches wins." -/
def classify (role : Role) (h : BitVec 16) : Option HeaderClass :=
  (headerTable.find? (fun r => r.hits role h)).map (fun r => r.cls)

/-! ## Decoding -/

/-- Why a decoder gives no instruction. -/
inductive DecodeError where
  /-- fewer bytes than the header region needs: R65's Incomplete, not an error of the codec -/
  | incomplete
  /-- no row of the class table matches; R75 says that "Every 16-bit H falls into one class" -/
  | noClass
deriving DecidableEq, Repr

/-- R65 steps 2 and 3: the LEN16 bytes, then the rest. -/
def takeLen16 : Bytes → Except DecodeError (BitVec 16 × Bytes)
  | b2 :: b3 :: rest => .ok (joinLen16 b2 b3, rest)
  | _ => .error .incomplete

/-- R66: the four key bytes, then the rest. -/
def takeKey : Bytes → Except DecodeError (Key × Bytes)
  | k0 :: k1 :: k2 :: k3 :: rest => .ok (joinKey k0 k1 k2 k3, rest)
  | _ => .error .incomplete

/-- The instruction of a class: its fields from H and from the bytes after H (R61). -/
def readClass (c : HeaderClass) (h : BitVec 16) (rest : Bytes) : Except DecodeError (Instr × Bytes) :=
  match c with
  | .rejectFinClear => .ok (.rejectFinClear (hRsv h) (hOpcode h) (hMask h) (hLen7 h), rest)
  | .rejectOpcode => .ok (.rejectOpcode (hRsv h) (hOpcode h) (hMask h) (hLen7 h), rest)
  | .rejectMaskNm => .ok (.rejectMaskNm (hRsv h) (hLen7 h), rest)
  | .rejectMaskM => .ok (.rejectMaskM (hRsv h) (hLen7 h), rest)
  | .lenExt64Nm => .ok (.lenExt64Nm (hRsv h), rest)
  | .lenExt64M => .ok (.lenExt64M (hRsv h), rest)
  | .lenExt16Nm =>
    match takeLen16 rest with
    | .error e => .error e
    | .ok (len16, rest2) =>
      match takeKey rest2 with
      | .error e => .error e
      | .ok (key, rest3) => .ok (.lenExt16Nm (hRsv h) len16 key, rest3)
  | .lenExt16M =>
    match takeLen16 rest with
    | .error e => .error e
    | .ok (len16, rest2) => .ok (.lenExt16M (hRsv h) len16, rest2)
  | .lenShortNm =>
    match takeKey rest with
    | .error e => .error e
    | .ok (key, rest2) => .ok (.lenShortNm (hRsv h) (hLen7 h) key, rest2)
  | .lenShortM => .ok (.lenShortM (hRsv h) (hLen7 h), rest)

/-- The header region at the front of `w`, read in a role: the instruction and the bytes after its header region.
A class that needs no more than H is given as soon as two bytes are present (R121). -/
def decodeHeader (role : Role) (w : Bytes) : Except DecodeError (Instr × Bytes) :=
  match w with
  | b0 :: b1 :: rest =>
    match classify role (headerWord b0 b1) with
    | some c => readClass c (headerWord b0 b1) rest
    | none => .error .noClass
  | _ => .error .incomplete

/-- R72: the command a code names, with the operands it reads. -/
def decodeCommand (c : Command) : Instr :=
  match c.code with
  | 0b000#3 => .reset c.role
  | 0b001#3 => .submit c.bytes
  | 0b010#3 => .wrap c.bytes
  | 0b011#3 => .maskApply c.bytes c.key
  | 0b100#3 => .parseHeader c.bytes
  | 0b101#3 => .readTxKey
  | 0b110#3 => .readRxLast
  | _ => .reserved

/-! ## Encoding -/

/-- Byte 0 of a frame: FIN, RSV, OPCODE (R61). -/
def headerByte0 (fin : BitVec 1) (rsv : BitVec 3) (opcode : BitVec 4) : Byte := fin ++ rsv ++ opcode

/-- Byte 1 of a frame: MASK, LEN7 (R61). -/
def headerByte1 (mask : BitVec 1) (len7 : BitVec 7) : Byte := mask ++ len7

/-- R45: bytes 2 and 3 of a frame with LEN7 = 126. -/
def len16Bytes (len16 : BitVec 16) : Bytes := [len16.extractLsb' 8 8, len16.extractLsb' 0 8]

/-- R46: the key on the wire, `key[31:24]` first. -/
def keyBytes (key : Key) : Bytes :=
  [key.extractLsb' 24 8, key.extractLsb' 16 8, key.extractLsb' 8 8, key.extractLsb' 0 8]

/-- What an instruction is encoded as: the header region of a frame, or a command. -/
inductive Encoding where
  | header (bytes : Bytes)
  | command (c : Command)
deriving DecidableEq, Repr

/-- A command's record with nothing in the operands it does not read. -/
def Command.bare (code : BitVec 3) : Command := { code := code, role := .nonMasking, bytes := [], key := 0 }

/-- The encoding of an instruction (R61 for the header rows, R72 for the commands). A rejected header, or one with
LEN7 = 127, is its first two bytes: nothing after them is read (R121, R128; log 9). -/
def encode : Instr → Encoding
  | .rejectFinClear rsv opcode mask len7 => .header [headerByte0 0 rsv opcode, headerByte1 mask len7]
  | .rejectOpcode rsv opcode mask len7 => .header [headerByte0 1 rsv opcode, headerByte1 mask len7]
  | .rejectMaskNm rsv len7 => .header [headerByte0 1 rsv 2, headerByte1 0 len7]
  | .lenExt64Nm rsv => .header [headerByte0 1 rsv 2, headerByte1 1 127]
  | .lenExt16Nm rsv len16 key =>
    .header ([headerByte0 1 rsv 2, headerByte1 1 126] ++ len16Bytes len16 ++ keyBytes key)
  | .lenShortNm rsv len7 key => .header ([headerByte0 1 rsv 2, headerByte1 1 len7] ++ keyBytes key)
  | .rejectMaskM rsv len7 => .header [headerByte0 1 rsv 2, headerByte1 1 len7]
  | .lenExt64M rsv => .header [headerByte0 1 rsv 2, headerByte1 0 127]
  | .lenExt16M rsv len16 => .header ([headerByte0 1 rsv 2, headerByte1 0 126] ++ len16Bytes len16)
  | .lenShortM rsv len7 => .header [headerByte0 1 rsv 2, headerByte1 0 len7]
  | .reset role => .command { Command.bare 0b000 with role := role }
  | .submit chunk => .command { Command.bare 0b001 with bytes := chunk }
  | .wrap payload => .command { Command.bare 0b010 with bytes := payload }
  | .maskApply data key => .command { Command.bare 0b011 with bytes := data, key := key }
  | .parseHeader window => .command { Command.bare 0b100 with bytes := window }
  | .readTxKey => .command (Command.bare 0b101)
  | .readRxLast => .command (Command.bare 0b110)
  | .reserved => .command (Command.bare 0b111)

/-- The instruction an encoding stands for, in a role, with the bytes after a header region. -/
def decode (role : Role) : Encoding → Except DecodeError (Instr × Bytes)
  | .header bytes => decodeHeader role bytes
  | .command c => .ok (decodeCommand c, [])

/-! ## The table's own numbering of bits -/

/-- The bytes of a header laid out from the table's 16-bit words: H[15:8] is frame[0], H[7:0] is frame[1], and each
later word likewise, up to the longest header region of 8 bytes (R8). -/
def tableHeaderBytes (w : Nat) : Bytes :=
  [BitVec.ofNat 8 (w / 2 ^ 8), BitVec.ofNat 8 w,
   BitVec.ofNat 8 (w / 2 ^ 24), BitVec.ofNat 8 (w / 2 ^ 16),
   BitVec.ofNat 8 (w / 2 ^ 40), BitVec.ofNat 8 (w / 2 ^ 32),
   BitVec.ofNat 8 (w / 2 ^ 56), BitVec.ofNat 8 (w / 2 ^ 48)]

/-- The role a table word is read in. A 16-bit word does not say the role its row belongs to; it is read in the role
that accepts its MASK bit, H[7] = 1 - ROLE (R75; log 10). -/
def tableRole (w : Nat) : Role := if w / 2 ^ 7 % 2 = 1 then .nonMasking else .masking

/-- The command whose 3-bit code is w, with every operand empty or zero. -/
def tableCommand (w : Nat) : Command := Command.bare (BitVec.ofNat 3 w)

/-- The decoder's answer on the bits of a table row: a command row has its code in at most one byte, a header row has
16 bits or more. -/
def decodeTableWord (nbits w : Nat) : Option Instr :=
  if nbits ≤ 8 then
    if w < 8 then some (decodeCommand (tableCommand w)) else none
  else
    match decodeHeader (tableRole w) (tableHeaderBytes w) with
    | .ok (i, _) => some i
    | .error _ => none

end Sys2Proof
end

