-- ==== Sys2Proof/Machine/Operands.lean ====
section
/-! DEFINITION. The fields of a frame's header region, as the parser reads them and the writer builds them
(spec 30_encoding.md R61-R66, 20_memory.md R45, R46). -/

namespace Sys2Proof.Machine

/-- R21: ROLE as a bit, `1 = MASKING`, `0 = NON_MASKING`. -/
def roleBit : Role → BitVec 1
  | .nonMasking => 0
  | .masking => 1

/-- R127: the MASK bit a receiver of the role expects, `1 - role`. -/
def expectedMask : Role → BitVec 1
  | .nonMasking => 1
  | .masking => 0

/-- `w[i]` of R13; read only for `i < len(w)`. -/
def byteAt (w : Bytes) (i : Nat) : Byte := w.getD i 0

/-- `w[0][7]` (R120). -/
def finField (w : Bytes) : BitVec 1 := (byteAt w 0).extractLsb' 7 1

/-- `w[0][3:0]` (R120). -/
def opcodeField (w : Bytes) : BitVec 4 := (byteAt w 0).extractLsb' 0 4

/-- `w[1][7]` (R120). -/
def maskField (w : Bytes) : BitVec 1 := (byteAt w 1).extractLsb' 7 1

/-- `w[1][6:0]` (R120). -/
def len7Field (w : Bytes) : BitVec 7 := (byteAt w 1).extractLsb' 0 7

/-- R62: `zext_64(w[2] ‖ w[3])`, big-endian (R45). -/
def len16Field (w : Bytes) : Len64 := (joinLen16 (byteAt w 2) (byteAt w 3)).setWidth 64

/-- R66: the key of a masked header whose extension has `ext` bytes, `w[2+ext] ‖ .. ‖ w[5+ext]`. -/
def keyField (w : Bytes) (ext : Nat) : Key :=
  joinKey (byteAt w (2 + ext)) (byteAt w (3 + ext)) (byteAt w (4 + ext)) (byteAt w (5 + ext))

/-- R63: `h = 2 + ext + keylen`. -/
def headerLength (ext : Nat) (mask : BitVec 1) : Nat := 2 + ext + (if mask = 1 then 4 else 0)

/-- R100, R103: bytes 0 and 1 and the length extension of the frame for a payload of `len` bytes, the shortest
supported encoding (R76). Byte 0 is 0x82; byte 1 is `(ROLE << 7) | LEN7`, assigned whole. -/
def writeHeader (role : Role) (len : Nat) : Bytes :=
  if len < 126 then [0x82#8, headerByte1 (roleBit role) (BitVec.ofNat 7 len)]
  else [0x82#8, headerByte1 (roleBit role) 126] ++ len16Bytes (BitVec.ofNat 16 len)

end Sys2Proof.Machine
end

