-- ==== Sys2Proof/Machine/Parser.lean ====
section
/-! DEFINITION. FrameHeaderParser: Parse, the command PARSE_HEADER (spec 42_parser.md R120-R136), and PHASE, which is a
function of it (10_state.md R27). -/

namespace Sys2Proof.Machine

/-- R120, once the length extension is settled: the key's bytes must be present, then the header is PARSED. -/
def parseKeyed (w : Bytes) (ext : Nat) (n : Len64) : ParseOutcome :=
  if w.length < headerLength ext (maskField w) then .incomplete
  else .parsed (headerLength ext (maskField w)) n (if maskField w = 1 then some (keyField w ext) else none)

/-- `Parse(w, role)` of R120, its checks in the order of R121. -/
def parse (w : Bytes) (role : Role) : ParseOutcome :=
  if w.length < 2 then .incomplete
  else if finField w = 0 then .invalid .finClear
  else if opcodeField w ≠ 2 then .invalid .badOpcode
  else if maskField w ≠ expectedMask role then .invalid .maskMismatch
  else if len7Field w = 127 then .unsupportedLength
  else if len7Field w = 126 then
    if w.length < 4 then .incomplete else parseKeyed w 2 (len16Field w)
  else parseKeyed w 0 ((len7Field w).setWidth 64)

/-- PARSE_HEADER (R120, R131, R135): reads ROLE and its window, writes nothing. -/
def execParseHeader (window : Bytes) (s : State) : Host.Outcome State Fault Refusal :=
  .next (s.respond (.outcome (parse window s.role)) (parse window s.role).status)

/-- The states of the reassembly FSM (R27). -/
inductive Phase where
  | failed
  | waitHeader
  | waitPayload
  | ready
  | blockedLength
deriving DecidableEq, Repr

/-- PHASE (R27). `none` where RX_FAULT is NONE and the front of RXBUF is INVALID, which "cannot occur" (R28);
under DRAIN_POLICY = ONE it can (DEDUCED, log 12). A front with LEN7 = 127 is BLOCKED_LENGTH as R27 says, also where a
SUBMIT under ONE left it there with status OK, a PHASE that R158's row for ONE does not list (DEDUCED, log 15). -/
def State.phase (s : State) : Option Phase :=
  match s.rxFault with
  | some _ => some .failed
  | none =>
    match parse s.rxbuf s.role with
    | .incomplete => some .waitHeader
    | .parsed h n _ => if s.rxbuf.length < h + n.toNat then some .waitPayload else some .ready
    | .unsupportedLength => some .blockedLength
    | .invalid _ => none

end Sys2Proof.Machine
end

