-- ==== Sys2Proof/Machine/Receiver.lean ====
section
/-! DEFINITION. FrameReceiver: the command SUBMIT (spec 43_receiver.md R140-R159). One pass of its loop is an operation
of its own, since it is also the meaning of a frame header (Machine/Headers.lean). -/

namespace Sys2Proof.Machine

/-- What one pass of SUBMIT's loop comes to. -/
inductive Pass where
  /-- `return (out, status)` -/
  | done (s : State) (out : List Bytes) (status : Status)
  /-- a frame was extracted and the loop goes on -/
  | again (s : State) (out : List Bytes)
deriving DecidableEq, Repr

/-- R145: a frame with header length h and n payload bytes, wholly in RXBUF, is taken out; its payload, unmasked if it
has a key, is appended to the response. R146: with DRAIN_POLICY = ONE the SUBMIT ends there, status OK, whatever frame
stands behind it: by R140 that frame is not parsed, also where R158 does not list the PHASE it leaves (DEDUCED: log 15 for
a frame with LEN7 = 127 behind it, log 12 for an INVALID one). -/
def extractFrame (h n : Nat) (key : Option Key) (s : State) (out : List Bytes) : Except Fault Pass :=
  match memRead h n s with
  | .error f => .error f
  | .ok p =>
    match memConsume (h + n) s with
    | .error f => .error f
    | .ok t =>
      match s.params.drainPolicy with
      | .one => .ok (.done t (out ++ [maskIfKeyed key p]) .ok)
      | .all => .ok (.again t (out ++ [maskIfKeyed key p]))

/-- R144, R145, R147: the pass for a PARSED header. The diagnostic registers are written first; then the declared-size
check, then the payload sufficiency test (R187 item 4). -/
def passParsed (h : Nat) (n : Len64) (key : Option Key) (s : State) (out : List Bytes) : Except Fault Pass :=
  if h + n.toNat > s.params.rxBufCap then
    .ok (.done ((s.recordParsed n key).latch .payloadTooLarge) out .payloadTooLarge)
  else if s.rxbuf.length < h + n.toNat then .ok (.done (s.recordParsed n key) out .ok)
  else extractFrame h n.toNat key (s.recordParsed n key) out

/-- One pass of SUBMIT's loop on a parse outcome (R140). -/
def runPass (r : ParseOutcome) (s : State) (out : List Bytes) : Except Fault Pass :=
  match r with
  | .incomplete => .ok (.done s out .ok)
  | .invalid reason => .ok (.done (s.latch (.framing reason)) out reason.status)
  | .unsupportedLength => .ok (.done s out .unsupportedLengthScheme)
  | .parsed h n key => passParsed h n key s out

/-- SUBMIT's loop (R140), in at most the given number of passes. -/
def drain : Nat → State → List Bytes → Except Fault (State × List Bytes × Status)
  | 0, _, _ => .error .passBound
  | k + 1, s, out =>
    match runPass (parse s.rxbuf s.role) s out with
    | .error f => .error f
    | .ok (.done t out' status) => .ok (t, out', status)
    | .ok (.again t out') => drain k t out'

/-- R150: "the loop ends after at most `len(RXBUF) / 2 + 1` passes". -/
def drainBound (s : State) : Nat := s.rxbuf.length / 2 + 1

/-- R142: the answer of a latched receiver, `([], RX_FAULT)`. -/
def latchedAnswer (c : RxFault) (s : State) : State := s.respond (.payloads []) c.status

/-- SUBMIT (R140). A latched fault wins over everything, then the append capacity check (R187). -/
def execSubmit (chunk : Bytes) (s : State) : Host.Outcome State Fault Refusal :=
  match s.rxFault with
  | some c => .next (latchedAnswer c s)
  | none =>
    if s.rxbuf.length + chunk.length > s.params.rxBufCap then
      .next ((s.latch .payloadTooLarge).respond (.payloads []) .payloadTooLarge)
    else
      match memAppend chunk s with
      | .error f => .fault f
      | .ok t =>
        match drain (drainBound t) t [] with
        | .error f => .fault f
        | .ok (u, out, status) => .next (u.respond (.payloads out) status)

end Sys2Proof.Machine
end

