-- ==== Sys2Proof/Machine/Headers.lean ====
section
/-! DEFINITION. The meanings of the frame header classes (spec 30_encoding.md R75). A header is what the receiver finds
at the front of RXBUF; its meaning is the one pass of SUBMIT's loop (R140) that meets it: the class's outcome, and what
the receiver does with that outcome (R143-R148). DEDUCED (log 8, safe). The header is taken to stand at the front of
RXBUF: the pass reads its payload behind it and does not look at the header bytes again (log 11). -/

namespace Sys2Proof.Machine

/-- The pass of SUBMIT's loop on a header whose outcome is `r`, answered as SUBMIT answers when its loop ends with this
pass. While RX_FAULT is latched the receiver runs no pass (R142). -/
def receiveHeader (r : ParseOutcome) (s : State) : Host.Outcome State Fault Refusal :=
  match s.rxFault with
  | some c => .next (latchedAnswer c s)
  | none =>
    match runPass r s [] with
    | .error f => .fault f
    | .ok (.done t out status) => .next (t.respond (.payloads out) status)
    | .ok (.again t out) => .next (t.respond (.payloads out) .ok)

/-- REJECT_FIN_CLEAR: INVALID(FRAMING_FIN_CLEAR) (R125), latched (R143). -/
def execRejectFinClear (_rsv : BitVec 3) (_opcode : BitVec 4) (_mask : BitVec 1) (_len7 : BitVec 7) (s : State) :
    Host.Outcome State Fault Refusal :=
  receiveHeader (.invalid .finClear) s

/-- REJECT_OPCODE: INVALID(FRAMING_BAD_OPCODE) (R126), latched (R143). -/
def execRejectOpcode (_rsv : BitVec 3) (_opcode : BitVec 4) (_mask : BitVec 1) (_len7 : BitVec 7) (s : State) :
    Host.Outcome State Fault Refusal :=
  receiveHeader (.invalid .badOpcode) s

/-- REJECT_MASK.NM: INVALID(FRAMING_MASK_MISMATCH) (R127), latched (R143). -/
def execRejectMaskNm (_rsv : BitVec 3) (_len7 : BitVec 7) (s : State) : Host.Outcome State Fault Refusal :=
  receiveHeader (.invalid .maskMismatch) s

/-- REJECT_MASK.M: INVALID(FRAMING_MASK_MISMATCH) (R127), latched (R143). -/
def execRejectMaskM (_rsv : BitVec 3) (_len7 : BitVec 7) (s : State) : Host.Outcome State Fault Refusal :=
  receiveHeader (.invalid .maskMismatch) s

/-- LEN_EXT64.NM: UNSUPPORTED_LENGTH (R128), reported and not latched (R148). -/
def execLenExt64Nm (_rsv : BitVec 3) (s : State) : Host.Outcome State Fault Refusal :=
  receiveHeader .unsupportedLength s

/-- LEN_EXT64.M: UNSUPPORTED_LENGTH (R128), reported and not latched (R148). -/
def execLenExt64M (_rsv : BitVec 3) (s : State) : Host.Outcome State Fault Refusal :=
  receiveHeader .unsupportedLength s

/-- LEN_EXT16.NM: PARSED(h = 8, n = LEN16, key) (R129, R130). -/
def execLenExt16Nm (_rsv : BitVec 3) (len16 : BitVec 16) (key : Key) (s : State) : Host.Outcome State Fault Refusal :=
  receiveHeader (.parsed 8 (len16.setWidth 64) (some key)) s

/-- LEN_EXT16.M: PARSED(h = 4, n = LEN16, no key) (R129, R130). -/
def execLenExt16M (_rsv : BitVec 3) (len16 : BitVec 16) (s : State) : Host.Outcome State Fault Refusal :=
  receiveHeader (.parsed 4 (len16.setWidth 64) none) s

/-- LEN_SHORT.NM: PARSED(h = 6, n = LEN7, key) (R129, R130). -/
def execLenShortNm (_rsv : BitVec 3) (len7 : BitVec 7) (key : Key) (s : State) : Host.Outcome State Fault Refusal :=
  receiveHeader (.parsed 6 (len7.setWidth 64) (some key)) s

/-- LEN_SHORT.M: PARSED(h = 2, n = LEN7, no key) (R129, R130). -/
def execLenShortM (_rsv : BitVec 3) (len7 : BitVec 7) (s : State) : Host.Outcome State Fault Refusal :=
  receiveHeader (.parsed 2 (len7.setWidth 64) none) s

end Sys2Proof.Machine
end

