-- ==== Sys2Proof/Machine/Writer.lean ====
section
/-! DEFINITION. FrameWriter: the command WRAP (spec 41_writer.md R100-R113). -/

namespace Sys2Proof.Machine

/-- R100: the frame for a payload in a role; `key` is the drawn key, used only in the masking role. A function of
these alone (R108). -/
def buildFrame (role : Role) (payload : Bytes) (key : Key) : Bytes :=
  match role with
  | .masking => writeHeader .masking payload.length ++ keyBytes key ++ maskApply payload key
  | .nonMasking => writeHeader .nonMasking payload.length ++ payload

/-- WRAP (R100). The length check comes first: a failed WRAP draws no key and writes no state (R101). -/
def execWrap (payload : Bytes) (s : State) : Host.Outcome State Fault Refusal :=
  if payload.length ≥ 65536 then .next (s.respond (.frame none) .unsupportedLengthScheme)
  else
    match s.role with
    | .masking =>
      .next ((s.afterDraw.recordTxKey s.nextKey).respond (.frame (some (buildFrame .masking payload s.nextKey))) .ok)
    | .nonMasking => .next (s.respond (.frame (some (buildFrame .nonMasking payload 0))) .ok)

end Sys2Proof.Machine
end

