-- ==== Sys2Proof/Machine/Dispatch.lean ====
section
/-! DEFINITION. One arm per row of spec/opcode_table.json. -/

namespace Sys2Proof.Machine

-- the frame header classes (R75), then the commands (R72)
def exec (i : Instr) (s : State) : Host.Outcome State Fault Refusal :=
  match i with
  | .rejectFinClear rsv opcode mask len7 => Sys2Proof.Machine.execRejectFinClear rsv opcode mask len7 s
  | .rejectOpcode rsv opcode mask len7 => Sys2Proof.Machine.execRejectOpcode rsv opcode mask len7 s
  | .rejectMaskNm rsv len7 => Sys2Proof.Machine.execRejectMaskNm rsv len7 s
  | .lenExt64Nm rsv => Sys2Proof.Machine.execLenExt64Nm rsv s
  | .lenExt16Nm rsv len16 key => Sys2Proof.Machine.execLenExt16Nm rsv len16 key s
  | .lenShortNm rsv len7 key => Sys2Proof.Machine.execLenShortNm rsv len7 key s
  | .rejectMaskM rsv len7 => Sys2Proof.Machine.execRejectMaskM rsv len7 s
  | .lenExt64M rsv => Sys2Proof.Machine.execLenExt64M rsv s
  | .lenExt16M rsv len16 => Sys2Proof.Machine.execLenExt16M rsv len16 s
  | .lenShortM rsv len7 => Sys2Proof.Machine.execLenShortM rsv len7 s
  | .reset role => Sys2Proof.Machine.execReset role s
  | .submit chunk => Sys2Proof.Machine.execSubmit chunk s
  | .wrap payload => Sys2Proof.Machine.execWrap payload s
  | .maskApply data key => Sys2Proof.Machine.execMaskApply data key s
  | .parseHeader window => Sys2Proof.Machine.execParseHeader window s
  | .readTxKey => Sys2Proof.Machine.execReadTxKey s
  | .readRxLast => Sys2Proof.Machine.execReadRxLast s
  | .reserved => Sys2Proof.Machine.execReserved s

end Sys2Proof.Machine
end

