-- ==== Sys2Proof/Machine/Fetch.lean ====
section
/-! DEFINITION. Where the next command comes from. The codec fetches nothing from memory (spec 10_state.md R31): the
host issues commands, one at a time, in order (R53, R214), and the State holds those still to be issued (log 2). -/

namespace Sys2Proof.Machine

/-- The oldest command the host has yet to issue, decoded, and the state without it; none when the host issues nothing
and the codec waits (R31). -/
def fetch (s : State) : Option (Instr × State) :=
  match s.pending with
  | [] => none
  | c :: rest => some (decodeCommand c, { s with pending := rest })

/-- The host issues this command next. -/
def State.issueNext (c : Command) (s : State) : State := { s with pending := c :: s.pending }

/-- The header region alone, out of bytes laid out with operand words of zeros. -/
def headerRegion (role : Role) (w : Bytes) : Bytes :=
  match decodeHeader role w with
  | .ok (_, rest) => w.take (w.length - rest.length)
  | .error _ => w

/-- The receiver is ready to meet these bytes as the first of a frame: the role they are read in, no fault, nothing
buffered, room for the largest frame (65543 bytes, R8); and the host submits them next (log 10). -/
def State.meetHeader (role : Role) (bytes : Bytes) (s : State) : State :=
  State.issueNext { Command.bare 0b001 with bytes := bytes }
    { s with role := role, rxbuf := [], rxFault := none,
             params := { s.params with rxBufCap := max s.params.rxBufCap 65543 } }

/-- A word of the opcode table placed where the machine takes its next instruction from. -/
def State.placeTableWord (s : State) (nbits w : Nat) : State :=
  if nbits ≤ 8 then s.issueNext (tableCommand w)
  else s.meetHeader (tableRole w) (headerRegion (tableRole w) (tableHeaderBytes w))

end Sys2Proof.Machine
end

