-- ==== Sys2Proof/Machine/Step.lean ====
section
/-! DEFINITION. One step: the oldest command the host has yet to issue, run to completion (spec 00_scope.md R10). -/

namespace Sys2Proof.Machine

/-- R10, R220: one command, one atomic step. With no command to run the codec waits with its state unchanged
(R31, R195). -/
def step (s : State) : Host.Outcome State Fault Refusal :=
  match fetch s with
  | none => .next s
  | some (i, t) => exec i t

/-- `s` with the instruction of a table word where `step` takes its next one from. A command word is the host's next
command. A frame header word is the first frame the receiver meets: the host's next command SUBMITs it (log 10). -/
def State.withFetchWord (s : State) (nbits w : Nat) : State := s.placeTableWord nbits w

end Sys2Proof.Machine
end

