-- ==== Sys2Proof/Safety.lean ====
section
/-! DEFINITION. What counts as a good state and a good run, in the terms the statements use. -/

namespace Sys2Proof.Machine

/-- R42: `len(RXBUF) <= RX_BUF_CAP`. The well-formedness of the codec's one store. -/
abbrev State.bufferFits (s : State) : Prop := s.rxbuf.length ≤ s.params.rxBufCap

/-- R32: bits 63:16 of LAST_RX_LEN are zero. -/
def State.lengthInRange (s : State) : Prop := ∀ n, s.lastRxLen = some n → n.toNat ≤ 65535

/-- R28: while RX_FAULT is NONE the front of RXBUF is not INVALID. Taken for DRAIN_POLICY = ALL only (log 12). -/
def State.framed (s : State) : Prop :=
  s.params.drainPolicy = .all → s.rxFault = none → ∀ reason, parse s.rxbuf s.role ≠ .invalid reason

/-- R29: "With DRAIN_POLICY = ALL ... between commands, PHASE is never READY." -/
def State.drained (s : State) : Prop := s.params.drainPolicy = .all → s.phase ≠ some .ready

/-- R25, R144: a header parsed at the front of RXBUF is the one the diagnostic registers show, and its frame can fit
(DRAIN_POLICY = ALL). -/
def State.observed (s : State) : Prop :=
  s.params.drainPolicy = .all → s.rxFault = none →
    ∀ h n key, parse s.rxbuf s.role = .parsed h n key →
      s.lastRxLen = some n ∧ s.lastRxKey = key ∧ h + n.toNat ≤ s.params.rxBufCap

/-- R157, R170: the masking role parses no key, and the non-masking role draws none; in the non-masking role a parsed
length comes with a key. -/
def State.roleKeys (s : State) : Prop :=
  (s.role = .masking → s.lastRxKey = none) ∧
    (s.role = .nonMasking → s.lastTxKey = none ∧ s.lastRxKey.isSome = s.lastRxLen.isSome)

/-- The invariant of an instance between two commands. -/
structure State.Inv (s : State) : Prop where
  bufferFits : s.bufferFits
  lengthInRange : s.lengthInRange
  framed : s.framed
  drained : s.drained
  observed : s.observed
  roleKeys : s.roleKeys

/-- R64, R145: `f` is exactly one valid frame for a receiver of the role (FIN = 1, OPCODE = 2, MASK = 1 - ROLE,
LEN7 != 127, and all of its payload), and `payload` is what it carries. -/
def carries (role : Role) (f payload : Bytes) : Prop :=
  ∃ h n key, parse f role = .parsed h n key ∧ f.length = h + n.toNat ∧ payload = maskIfKeyed key (f.drop h)

/-- SUBMIT of each chunk in order: the last state, the concatenation of the payload lists, and every status. -/
def submitAll : List Bytes → State → Option (State × List Bytes × List Status)
  | [], s => some (s, [], [])
  | c :: cs, s =>
    match exec (.submit c) s with
    | .next t =>
      match t.response with
      | some ⟨.payloads ps, status⟩ =>
        match submitAll cs t with
        | some (u, qs, statuses) => some (u, ps ++ qs, status :: statuses)
        | none => none
      | _ => none
    | _ => none

end Sys2Proof.Machine
end

