-- ==== Sys2Proof/Certificates/Slice0/Obligations.lean ====
section
/-! DEFINITION. The statements for the provers, each from the numbered rules its docstring cites. -/

open Sys2Proof Sys2Proof.Machine

/-! ## RESET -/

/-- R210: RESET writes every register of R20 and nothing else of the instance, answers OK, leaves PHASE = WAIT_HEADER,
and issued twice with the same role equals issued once. -/
def Obligations.ResetSetsEveryRegister : Prop :=
  ∀ (role : Role) (s : State), ∃ t : State,
    exec (.reset role) s = .next t ∧
    t = { s with role := role, rxbuf := [], rxFault := none, lastTxKey := none, lastRxLen := none,
                 lastRxKey := none, response := some ⟨.empty, .ok⟩ } ∧
    t.phase = some .waitHeader ∧
    exec (.reset role) t = .next t

/-- R20, R211: an instance starts in the state RESET gives, for a role and parameters taken as arguments. The last
clause is the model's choice of the representative State.reset (logs 4 and 5). -/
def Obligations.InstanceStartsAsResetLeavesIt : Prop :=
  (∀ (p : Params) (role : Role) (s : State), s.params = p →
    ∃ t : State, exec (.reset role) s = .next t ∧
      (State.resetWith p role).role = t.role ∧ (State.resetWith p role).rxbuf = t.rxbuf ∧
      (State.resetWith p role).rxFault = t.rxFault ∧ (State.resetWith p role).lastTxKey = t.lastTxKey ∧
      (State.resetWith p role).lastRxLen = t.lastRxLen ∧ (State.resetWith p role).lastRxKey = t.lastRxKey ∧
      (State.resetWith p role).params = t.params) ∧
  State.reset = State.resetWith { rxBufCap := 131072, drainPolicy := .all } .nonMasking

/-! ## MaskCipher -/

/-- R90, R46: output byte i of MASK_APPLY is input byte i XOR key byte i mod 4, K0 = key[31:24]; status OK; no register
is written. -/
def Obligations.MaskApplyXorsThePad : Prop :=
  ∀ (data : Bytes) (key : Key) (s : State), ∃ out : Bytes,
    exec (.maskApply data key) s = .next { s with response := some ⟨.bytes out, .ok⟩ } ∧
    out.length = data.length ∧
    ∀ i (hi : i < data.length), out[i]? = some (data[i] ^^^ key.extractLsb' (24 - 8 * (i % 4)) 8)

/-- R91: masking what MASK_APPLY gave, with the same key, gives the data back. -/
def Obligations.MaskingTwiceIsTheIdentity : Prop :=
  ∀ (x : Bytes) (k : Key) (s : State), ∃ (t u : State) (y : Bytes),
    exec (.maskApply x k) s = .next t ∧ t.response = some ⟨.bytes y, .ok⟩ ∧
    exec (.maskApply y k) t = .next u ∧ u.response = some ⟨.bytes x, .ok⟩

/-- R92: the length is kept, and output byte i depends only on input byte i, on i mod 4 and on the key. -/
def Obligations.MaskOutputIsLocal : Prop :=
  ∀ (x y : Bytes) (k : Key) (i j : Nat), i % 4 = j % 4 → x[i]? = y[j]? →
    (maskApply x k).length = x.length ∧ (maskApply x k)[i]? = (maskApply y k)[j]?

/-- R95: a split at any point keeps the phase of the pad. -/
def Obligations.MaskSplitKeepsThePhase : Prop :=
  ∀ (a b : Bytes) (k : Key),
    maskApply (a ++ b) k = maskApply a k ++ maskFrom k (a.length % 4) b ∧
    ∀ (s i : Nat), (maskFrom k s b)[i]? =
      b[i]?.map (fun x => x ^^^ k.extractLsb' (24 - 8 * ((i + s) % 4)) 8)

/-! ## FrameWriter -/

/-- R100, R102, R103 in the non-masking role: the frame is 0x82, the length in its shortest encoding with the MASK bit
clear, and the payload as it is; no register is written. -/
def Obligations.WrapUnmaskedFrame : Prop :=
  ∀ (payload : Bytes) (s : State), s.role = .nonMasking → payload.length < 65536 →
    exec (.wrap payload) s = .next { s with response := some ⟨.frame (some (
      (if payload.length < 126 then [0x82#8, BitVec.ofNat 8 payload.length]
       else [0x82#8, 0x7E#8, BitVec.ofNat 8 (payload.length / 256), BitVec.ofNat 8 (payload.length % 256)])
      ++ payload)), .ok⟩ }

/-- R100 to R106 in the masking role: one key is drawn (any key: log 6), stands after the length field with key[31:24]
first, masks the payload from its first byte, and is written to LAST_TX_KEY; nothing else is written. -/
def Obligations.WrapMaskedFrame : Prop :=
  ∀ (payload : Bytes) (s : State), s.role = .masking → payload.length < 65536 →
    ∃ (key : Key) (body : Bytes),
      key = (s.keyScript.head?).getD (Config.keySource s.keyDraws) ∧
      exec (.wrap payload) s = .next { s with
        lastTxKey := some key
        keyScript := s.keyScript.tail
        keyDraws := if s.keyScript = [] then s.keyDraws + 1 else s.keyDraws
        response := some ⟨.frame (some (
          (if payload.length < 126 then [0x82#8, BitVec.ofNat 8 (128 + payload.length)]
           else [0x82#8, 0xFE#8, BitVec.ofNat 8 (payload.length / 256), BitVec.ofNat 8 (payload.length % 256)])
          ++ [key.extractLsb' 24 8, key.extractLsb' 16 8, key.extractLsb' 8 8, key.extractLsb' 0 8]
          ++ body)), .ok⟩ } ∧
      body.length = payload.length ∧
      ∀ i (hi : i < payload.length), body[i]? = some (payload[i] ^^^ key.extractLsb' (24 - 8 * (i % 4)) 8)

/-- R101: 65536 bytes or more give no frame and UNSUPPORTED_LENGTH_SCHEME; no key is drawn, no register is written, and
nothing is latched: a later WRAP is as if this one had not been issued. -/
def Obligations.WrapTooLongWritesNothing : Prop :=
  ∀ (payload : Bytes) (s : State), 65536 ≤ payload.length →
    ∃ t : State, t = { s with response := some ⟨.frame none, .unsupportedLengthScheme⟩ } ∧
      exec (.wrap payload) s = .next t ∧ ∀ later : Bytes, exec (.wrap later) t = exec (.wrap later) s

/-- R109: the sizes of WRAP's frames and where the length stands in them, in both roles. -/
def Obligations.WrapFrameSizes : Prop :=
  ∀ (payload : Bytes) (s : State), payload.length < 65536 →
    ∃ (t : State) (f : Bytes), exec (.wrap payload) s = .next t ∧ t.response = some ⟨.frame (some f), .ok⟩ ∧
      (payload.length < 126 →
        f.length = 2 + (if s.role = .masking then 4 else 0) + payload.length ∧
        (f.getD 1 0).toNat % 128 = payload.length) ∧
      (126 ≤ payload.length →
        f.length = 4 + (if s.role = .masking then 4 else 0) + payload.length ∧
        (f.getD 1 0).toNat % 128 = 126 ∧
        (f.getD 2 0).toNat * 256 + (f.getD 3 0).toNat = payload.length)

/-- R110: a masking-role frame has byte 1 bit 7 set and its key, the one LAST_TX_KEY then shows, right after the length
field; a non-masking-role frame has that bit clear, and its payload right after the length field. -/
def Obligations.WrapRoleDecidesMaskBitAndKey : Prop :=
  ∀ (payload : Bytes) (s : State), payload.length < 65536 →
    ∃ (t : State) (f : Bytes), exec (.wrap payload) s = .next t ∧ t.response = some ⟨.frame (some f), .ok⟩ ∧
      (s.role = .masking → (f.getD 1 0).getLsbD 7 = true ∧
        ∃ k, t.lastTxKey = some k ∧ keyBytes k <+: f.drop (if payload.length < 126 then 2 else 4)) ∧
      (s.role = .nonMasking → (f.getD 1 0).getLsbD 7 = false ∧
        f.drop (if payload.length < 126 then 2 else 4) = payload)

/-- R111: WRAP's response and the key it leaves depend on ROLE and KEY_SOURCE only, whatever the receiver holds, a
latched fault included; and WRAP leaves the receiver's registers as they were.
The premise on nextKey says that KEY_SOURCE gives both the same draw. -/
def Obligations.WrapIgnoresTheReceiver : Prop :=
  ∀ (payload : Bytes) (s s' : State),
    s.role = s'.role → s.nextKey = s'.nextKey →
    ∃ t t' : State, exec (.wrap payload) s = .next t ∧ exec (.wrap payload) s' = .next t' ∧
      t.response = t'.response ∧
      (s.role = .masking → payload.length < 65536 → t.lastTxKey = t'.lastTxKey) ∧
      t.rxbuf = s.rxbuf ∧ t.rxFault = s.rxFault ∧ t.lastRxLen = s.lastRxLen ∧ t.lastRxKey = s.lastRxKey ∧
      t.role = s.role

/-- R59: SUBMIT's response and the receiver registers it leaves do not depend on LAST_TX_KEY or the key source, and it
leaves LAST_TX_KEY and the key source as they were. -/
def Obligations.SubmitIgnoresTheWriter : Prop :=
  ∀ (chunk : Bytes) (s s' : State),
    s.role = s'.role → s.rxbuf = s'.rxbuf → s.rxFault = s'.rxFault → s.lastRxLen = s'.lastRxLen →
    s.lastRxKey = s'.lastRxKey → s.params = s'.params →
    ∃ t t' : State, exec (.submit chunk) s = .next t ∧ exec (.submit chunk) s' = .next t' ∧
      t.response = t'.response ∧ t.rxbuf = t'.rxbuf ∧ t.rxFault = t'.rxFault ∧
      t.lastRxLen = t'.lastRxLen ∧ t.lastRxKey = t'.lastRxKey ∧
      t.lastTxKey = s.lastTxKey ∧ t.keyScript = s.keyScript ∧ t.keyDraws = s.keyDraws

/-- R113: a frame WRAPped by an instance of one role and SUBMITted whole to a fresh instance of the other role, with
room for it, gives exactly the payload, whatever key was drawn and whatever the drain policy; an instance of the same
role rejects it with FRAMING_MASK_MISMATCH. -/
def Obligations.WrapThenSubmitGivesThePayload : Prop :=
  ∀ (payload : Bytes) (a b : State), payload.length < 65536 → b.rxFault = none → b.rxbuf = [] →
    ∃ (t : State) (frame : Bytes), exec (.wrap payload) a = .next t ∧ t.response = some ⟨.frame (some frame), .ok⟩ ∧
      (frame.length ≤ b.params.rxBufCap →
        (b.role ≠ a.role → ∃ u : State, exec (.submit frame) b = .next u ∧
          u.response = some ⟨.payloads [payload], .ok⟩ ∧ u.rxbuf = [] ∧ u.rxFault = none) ∧
        (b.role = a.role → ∃ u : State, exec (.submit frame) b = .next u ∧
          u.response = some ⟨.payloads [], .framingMaskMismatch⟩))

/-! ## FrameHeaderParser -/

/-- R131, R135: PARSE_HEADER answers the outcome of its window in ROLE with that outcome's status, writes no register
and latches nothing. -/
def Obligations.ParseHeaderReportsAndWritesNothing : Prop :=
  ∀ (w : Bytes) (s : State), ∃ (r : ParseOutcome) (status : Status),
    r = parse w s.role ∧
    exec (.parseHeader w) s = .next { s with response := some ⟨.outcome r, status⟩ } ∧
    match r with
    | .incomplete => status = .incomplete
    | .invalid .finClear => status = .framingFinClear
    | .invalid .badOpcode => status = .framingBadOpcode
    | .invalid .maskMismatch => status = .framingMaskMismatch
    | .unsupportedLength => status = .unsupportedLengthScheme
    | .parsed _ _ _ => status = .ok

/-- R122, R125, R126, R127, R128: the verdicts that bytes 0 and 1 decide, in R121's order. A window of fewer than two
bytes is INCOMPLETE whatever it holds. -/
def Obligations.ParseVerdictsOfTheFirstTwoBytes : Prop :=
  ∀ (role : Role),
    parse [] role = .incomplete ∧
    (∀ b0 : Byte, parse [b0] role = .incomplete) ∧
    ∀ (b0 b1 : Byte) (rest : Bytes),
      (b0.getLsbD 7 = false → parse (b0 :: b1 :: rest) role = .invalid .finClear) ∧
      (b0.getLsbD 7 = true → b0.toNat % 16 ≠ 2 → parse (b0 :: b1 :: rest) role = .invalid .badOpcode) ∧
      (b0.getLsbD 7 = true → b0.toNat % 16 = 2 → b1.getLsbD 7 ≠ decide (role = .nonMasking) →
        parse (b0 :: b1 :: rest) role = .invalid .maskMismatch) ∧
      (b0.getLsbD 7 = true → b0.toNat % 16 = 2 → b1.getLsbD 7 = decide (role = .nonMasking) →
        b1.toNat % 128 = 127 → parse (b0 :: b1 :: rest) role = .unsupportedLength)

/-- R129, R130: length and key of an accepted header, and INCOMPLETE for every shorter window. `b1.toNat % 128` is
LEN7; the non-masking role's frames carry a key. -/
def Obligations.ParseReadsLengthAndKey : Prop :=
  ∀ (b0 b1 : Byte) (rest : Bytes), b0.getLsbD 7 = true → b0.toNat % 16 = 2 →
    (b1.getLsbD 7 = true → b1.toNat % 128 = 126 →
      match rest with
      | l1 :: l0 :: k0 :: k1 :: k2 :: k3 :: _ =>
        parse (b0 :: b1 :: rest) .nonMasking =
          .parsed 8 (BitVec.ofNat 64 (l1.toNat * 256 + l0.toNat)) (some (k0 ++ k1 ++ k2 ++ k3))
      | _ => parse (b0 :: b1 :: rest) .nonMasking = .incomplete) ∧
    (b1.getLsbD 7 = true → b1.toNat % 128 ≤ 125 →
      match rest with
      | k0 :: k1 :: k2 :: k3 :: _ =>
        parse (b0 :: b1 :: rest) .nonMasking =
          .parsed 6 (BitVec.ofNat 64 (b1.toNat % 128)) (some (k0 ++ k1 ++ k2 ++ k3))
      | _ => parse (b0 :: b1 :: rest) .nonMasking = .incomplete) ∧
    (b1.getLsbD 7 = false → b1.toNat % 128 = 126 →
      match rest with
      | l1 :: l0 :: _ =>
        parse (b0 :: b1 :: rest) .masking = .parsed 4 (BitVec.ofNat 64 (l1.toNat * 256 + l0.toNat)) none
      | _ => parse (b0 :: b1 :: rest) .masking = .incomplete) ∧
    (b1.getLsbD 7 = false → b1.toNat % 128 ≤ 125 →
      parse (b0 :: b1 :: rest) .masking = .parsed 2 (BitVec.ofNat 64 (b1.toNat % 128)) none)

/-- R124: windows that differ only in the RSV bits, byte 0 bits 6:4, have the same outcome. -/
def Obligations.ParseIgnoresRsv : Prop :=
  ∀ (role : Role) (b0 c0 : Byte) (rest : Bytes),
    b0.getLsbD 7 = c0.getLsbD 7 → b0.toNat % 16 = c0.toNat % 16 →
    parse (b0 :: rest) role = parse (c0 :: rest) role

/-- R132: Parse reads no byte past its first eight; and of a PARSED header, none past offset h - 1, with h at most 8. -/
def Obligations.ParseReadsOnlyTheHeader : Prop :=
  ∀ (role : Role) (w : Bytes),
    (∀ w' : Bytes, w.take 8 = w'.take 8 → parse w role = parse w' role) ∧
    ∀ (h : Nat) (n : Len64) (key : Option Key), parse w role = .parsed h n key →
      h ≤ 8 ∧ ∀ x : Bytes, parse (w.take h ++ x) role = .parsed h n key

/-- R133: a verdict, once reached, does not change as more bytes arrive; and before an INCOMPLETE window every shorter
one is INCOMPLETE. -/
def Obligations.ParseVerdictIsStable : Prop :=
  ∀ (role : Role) (w : Bytes),
    (parse w role ≠ .incomplete → ∀ x : Bytes, parse (w ++ x) role = parse w role) ∧
    (parse w role = .incomplete → ∀ j, parse (w.take j) role = .incomplete)

/-- R134: a window of eight bytes or more is never INCOMPLETE; an INCOMPLETE window of two or more has FIN = 1,
OPCODE = 2 and the MASK bit of the role, LEN7 != 127, and is shorter than its header. -/
def Obligations.IncompleteIsBounded : Prop :=
  ∀ (role : Role) (w : Bytes), parse w role = .incomplete →
    w.length < 8 ∧
    ∀ (b0 b1 : Byte) (rest : Bytes), w = b0 :: b1 :: rest →
      b0.getLsbD 7 = true ∧ b0.toNat % 16 = 2 ∧ b1.getLsbD 7 = decide (role = .nonMasking) ∧
      b1.toNat % 128 ≠ 127 ∧
      w.length < 2 + (if b1.toNat % 128 = 126 then 2 else 0) + (if b1.getLsbD 7 then 4 else 0)

/-- R75: every pair of first bytes falls into a class of the table, and the class's outcome column is what the parser
of R120 answers, for every window and both roles. -/
def Obligations.HeaderClassesAreTheParser : Prop :=
  ∀ (role : Role) (b0 b1 : Byte) (rest : Bytes),
    match classify role (headerWord b0 b1) with
    | none => False
    | some .rejectFinClear => parse (b0 :: b1 :: rest) role = .invalid .finClear
    | some .rejectOpcode => parse (b0 :: b1 :: rest) role = .invalid .badOpcode
    | some .rejectMaskNm => parse (b0 :: b1 :: rest) role = .invalid .maskMismatch
    | some .rejectMaskM => parse (b0 :: b1 :: rest) role = .invalid .maskMismatch
    | some .lenExt64Nm => parse (b0 :: b1 :: rest) role = .unsupportedLength
    | some .lenExt64M => parse (b0 :: b1 :: rest) role = .unsupportedLength
    | some .lenExt16Nm =>
      match rest with
      | l1 :: l0 :: k0 :: k1 :: k2 :: k3 :: _ =>
        parse (b0 :: b1 :: rest) role = .parsed 8 ((l1 ++ l0 : BitVec 16).setWidth 64) (some (k0 ++ k1 ++ k2 ++ k3))
      | _ => parse (b0 :: b1 :: rest) role = .incomplete
    | some .lenShortNm =>
      match rest with
      | k0 :: k1 :: k2 :: k3 :: _ =>
        parse (b0 :: b1 :: rest) role = .parsed 6 ((hLen7 (headerWord b0 b1)).setWidth 64) (some (k0 ++ k1 ++ k2 ++ k3))
      | _ => parse (b0 :: b1 :: rest) role = .incomplete
    | some .lenExt16M =>
      match rest with
      | l1 :: l0 :: _ => parse (b0 :: b1 :: rest) role = .parsed 4 ((l1 ++ l0 : BitVec 16).setWidth 64) none
      | _ => parse (b0 :: b1 :: rest) role = .incomplete
    | some .lenShortM => parse (b0 :: b1 :: rest) role = .parsed 2 ((hLen7 (headerWord b0 b1)).setWidth 64) none

/-! ## Encoding -/

/-- R61, R72, R75: decoding the encoding of a well-formed instruction, in a role its row is tried in and with any bytes
after a header region, gives the instruction and those bytes: no bit of an encoding is dropped. The extent of a rejected
header and the record of a command are the model's (DESIGN CHOICE, logs 9 and 3). -/
def Obligations.DecodeEncodeRoundTrip : Prop :=
  ∀ (role : Role) (i : Instr) (rest : Bytes), i.wf = true → i.inRole role = true →
    match encode i with
    | .header b => decodeHeader role (b ++ rest) = .ok (i, rest)
    | .command c => decodeCommand c = i

/-- R61, R75: a header that decodes is the encoding of a well-formed header instruction of the role, followed by the
bytes left over: each header region has one meaning. The extent of a rejected header is the model's (DESIGN CHOICE,
log 9). -/
def Obligations.DecodedHeaderIsItsEncoding : Prop :=
  ∀ (role : Role) (w rest : Bytes) (i : Instr), decodeHeader role w = .ok (i, rest) →
    i.wf = true ∧ i.inRole role = true ∧ i.isHeader = true ∧
    ∃ b : Bytes, encode i = .header b ∧ w = b ++ rest

/-- A few encodings written out from the spec (R79, P15, P19, P20, P23, R72, R74): a sanity check. -/
def Obligations.SpecEncodingsDecode : Prop :=
  decodeHeader .nonMasking [0x82, 0x8D, 0x11, 0x22, 0x33, 0x44, 0x59] =
    .ok (.lenShortNm 0 13 0x11223344, [0x59]) ∧
  decodeHeader .nonMasking [0x82, 0xFE, 0xC3, 0x50, 0x11, 0x22, 0x33, 0x44] =
    .ok (.lenExt16Nm 0 50000 0x11223344, []) ∧
  decodeHeader .masking [0xF2, 0x05] = .ok (.lenShortM 7 5, []) ∧
  decodeHeader .masking [0x82, 0x7E, 0x00, 0x05] = .ok (.lenExt16M 0 5, []) ∧
  decodeHeader .nonMasking [0x81, 0x80] = .ok (.rejectOpcode 0 1 1 0, []) ∧
  decodeCommand ⟨0b011, .nonMasking, [0x42, 0x42], 0x01010101⟩ = .maskApply [0x42, 0x42] 0x01010101 ∧
  decodeCommand ⟨0b111, .nonMasking, [], 0⟩ = .reserved

/-! ## Frame headers as the receiver runs them -/

/-- R143: a header that FIN, OPCODE or MASK condemns latches its reason in RX_FAULT, is reported, and is not consumed;
nothing else is written. A header as an instruction is the model's reading (DEDUCED, log 8). -/
def Obligations.RejectedHeadersLatchTheirReason : Prop :=
  ∀ (s : State), s.rxFault = none →
    (∀ rsv opcode mask len7, exec (.rejectFinClear rsv opcode mask len7) s = .next
      { s with rxFault := some (.framing .finClear), response := some ⟨.payloads [], .framingFinClear⟩ }) ∧
    (∀ rsv opcode mask len7, exec (.rejectOpcode rsv opcode mask len7) s = .next
      { s with rxFault := some (.framing .badOpcode), response := some ⟨.payloads [], .framingBadOpcode⟩ }) ∧
    (∀ rsv len7, exec (.rejectMaskNm rsv len7) s = .next
      { s with rxFault := some (.framing .maskMismatch), response := some ⟨.payloads [], .framingMaskMismatch⟩ }) ∧
    (∀ rsv len7, exec (.rejectMaskM rsv len7) s = .next
      { s with rxFault := some (.framing .maskMismatch), response := some ⟨.payloads [], .framingMaskMismatch⟩ })

/-- R148: a header with LEN7 = 127 is reported, not latched and not consumed; nothing is written. A header as an
instruction is the model's reading (DEDUCED, log 8). -/
def Obligations.Ext64HeadersAreReportedOnly : Prop :=
  ∀ (s : State) (rsv : BitVec 3), s.rxFault = none →
    exec (.lenExt64Nm rsv) s = .next { s with response := some ⟨.payloads [], .unsupportedLengthScheme⟩ } ∧
    exec (.lenExt64M rsv) s = .next { s with response := some ⟨.payloads [], .unsupportedLengthScheme⟩ }

/-- R144, R145, R147: what the receiver does with a PARSED header of length h that declares n payload bytes and carries
`key`, as an answer `o` from the state s. The three cases exclude each other. -/
def Sys2Proof.Machine.parsedHeaderEffect (h n : Nat) (key : Option Key) (s : State)
    (o : Host.Outcome State Fault Refusal) : Prop :=
  (s.params.rxBufCap < h + n → o = .next { s with
    lastRxLen := some (BitVec.ofNat 64 n), lastRxKey := key, rxFault := some .payloadTooLarge,
    response := some ⟨.payloads [], .payloadTooLarge⟩ }) ∧
  (h + n ≤ s.params.rxBufCap → s.rxbuf.length < h + n → o = .next { s with
    lastRxLen := some (BitVec.ofNat 64 n), lastRxKey := key, response := some ⟨.payloads [], .ok⟩ }) ∧
  (h + n ≤ s.params.rxBufCap → h + n ≤ s.rxbuf.length → o = .next { s with
    rxbuf := s.rxbuf.drop (h + n), lastRxLen := some (BitVec.ofNat 64 n), lastRxKey := key,
    response := some ⟨.payloads [maskIfKeyed key ((s.rxbuf.drop h).take n)], .ok⟩ })

/-- R144, R145, R147, R157: the four headers with a supported length, in every case of their declared length, the
capacity and the bytes present. A header as an instruction is the model's reading (DEDUCED, log 8), and it is taken to
stand at the front of RXBUF (DESIGN CHOICE, log 11). -/
def Obligations.ParsedHeadersLatchWaitOrExtract : Prop :=
  ∀ (s : State), s.rxFault = none →
    (∀ (rsv : BitVec 3) (len16 : BitVec 16) (key : Key),
      parsedHeaderEffect 8 len16.toNat (some key) s (exec (.lenExt16Nm rsv len16 key) s)) ∧
    (∀ (rsv : BitVec 3) (len7 : BitVec 7) (key : Key),
      parsedHeaderEffect 6 len7.toNat (some key) s (exec (.lenShortNm rsv len7 key) s)) ∧
    (∀ (rsv : BitVec 3) (len16 : BitVec 16),
      parsedHeaderEffect 4 len16.toNat none s (exec (.lenExt16M rsv len16) s)) ∧
    (∀ (rsv : BitVec 3) (len7 : BitVec 7),
      parsedHeaderEffect 2 len7.toNat none s (exec (.lenShortM rsv len7) s))

/-- R142: while RX_FAULT is latched, SUBMIT changes no register and answers `([], RX_FAULT)`. That a frame header, run as
an instruction, does so too is the model's choice, no rule of the spec: R142 speaks of SUBMIT only (DEDUCED, log 8). -/
def Obligations.LatchedReceiverChangesNothing : Prop :=
  ∀ (s : State) (c : RxFault) (i : Instr), s.rxFault = some c → (i.isHeader = true ∨ ∃ chunk, i = .submit chunk) →
    exec i s = .next { s with response := some ⟨.payloads [],
      match c with
      | .framing .finClear => .framingFinClear
      | .framing .badOpcode => .framingBadOpcode
      | .framing .maskMismatch => .framingMaskMismatch
      | .payloadTooLarge => .payloadTooLarge⟩ }

/-- R140, R75: what SUBMIT does with the header at the front of RXBUF is that header's meaning. With DRAIN_POLICY = ONE
it is all of SUBMIT; with ALL, SUBMIT goes on from there when a payload came out, and ends there when none did.
A header as an instruction is the model's reading (DEDUCED, log 8). -/
def Obligations.SubmitRunsTheHeaderAtTheFront : Prop :=
  ∀ (s : State) (chunk rest : Bytes) (i : Instr), s.rxFault = none →
    s.rxbuf.length + chunk.length ≤ s.params.rxBufCap →
    decodeHeader s.role (s.rxbuf ++ chunk) = .ok (i, rest) →
    ∃ (t : State) (ps : List Bytes) (status : Status),
      exec i { s with rxbuf := s.rxbuf ++ chunk } = .next t ∧ t.response = some ⟨.payloads ps, status⟩ ∧
      (s.params.drainPolicy = .one ∨ ps = [] → exec (.submit chunk) s = .next t) ∧
      (s.params.drainPolicy = .all → ps ≠ [] →
        ∃ (u : State) (qs : List Bytes) (status' : Status),
          exec (.submit []) t = .next u ∧ u.response = some ⟨.payloads qs, status'⟩ ∧
          exec (.submit chunk) s = .next { u with response := some ⟨.payloads (ps ++ qs), status'⟩ })

/-! ## FrameReceiver -/

/-- R149: a chunk that does not fit is not appended; PAYLOAD_TOO_LARGE latches and is reported; no frame is extracted. -/
def Obligations.SubmitOverflowLatches : Prop :=
  ∀ (s : State) (chunk : Bytes), s.rxFault = none → s.params.rxBufCap < s.rxbuf.length + chunk.length →
    exec (.submit chunk) s = .next
      { s with rxFault := some .payloadTooLarge, response := some ⟨.payloads [], .payloadTooLarge⟩ }

/-- R143: a SUBMIT that finds an INVALID frame at the front latches and reports the reason and keeps every byte, the
chunk included. -/
def Obligations.SubmitInvalidFrontLatches : Prop :=
  ∀ (s : State) (chunk : Bytes) (reason : FramingReason), s.rxFault = none →
    s.rxbuf.length + chunk.length ≤ s.params.rxBufCap →
    parse (s.rxbuf ++ chunk) s.role = .invalid reason →
    exec (.submit chunk) s = .next { s with
      rxbuf := s.rxbuf ++ chunk, rxFault := some (.framing reason)
      response := some ⟨.payloads [],
        match reason with
        | .finClear => .framingFinClear
        | .badOpcode => .framingBadOpcode
        | .maskMismatch => .framingMaskMismatch⟩ }

/-- R148: a SUBMIT that finds LEN7 = 127 at the front keeps every byte, latches nothing and reports
UNSUPPORTED_LENGTH_SCHEME; every later SUBMIT that fits does so again, and one that does not fit latches. -/
def Obligations.SubmitExt64BlocksUntilOverflow : Prop :=
  ∀ (s : State) (chunk : Bytes), s.rxFault = none → s.rxbuf.length + chunk.length ≤ s.params.rxBufCap →
    parse (s.rxbuf ++ chunk) s.role = .unsupportedLength →
    ∃ t : State, exec (.submit chunk) s = .next t ∧
      t = { s with rxbuf := s.rxbuf ++ chunk, response := some ⟨.payloads [], .unsupportedLengthScheme⟩ } ∧
      ∀ later : Bytes,
        (t.rxbuf.length + later.length ≤ t.params.rxBufCap →
          exec (.submit later) t = .next { t with rxbuf := t.rxbuf ++ later }) ∧
        (t.params.rxBufCap < t.rxbuf.length + later.length →
          exec (.submit later) t = .next
            { t with rxFault := some .payloadTooLarge, response := some ⟨.payloads [], .payloadTooLarge⟩ })

/-- R147, R144: a SUBMIT that cannot complete the frame at the front answers OK with no payload and keeps every byte; a
header it could parse shows in the diagnostic registers. -/
def Obligations.SubmitWaitsForMoreBytes : Prop :=
  ∀ (s : State) (chunk : Bytes), s.rxFault = none → s.rxbuf.length + chunk.length ≤ s.params.rxBufCap →
    (parse (s.rxbuf ++ chunk) s.role = .incomplete →
      exec (.submit chunk) s = .next { s with
        rxbuf := s.rxbuf ++ chunk, response := some ⟨.payloads [], .ok⟩ }) ∧
    (∀ h n key, parse (s.rxbuf ++ chunk) s.role = .parsed h n key → h + n.toNat ≤ s.params.rxBufCap →
      (s.rxbuf ++ chunk).length < h + n.toNat →
      exec (.submit chunk) s = .next { s with
        rxbuf := s.rxbuf ++ chunk, lastRxLen := some n, lastRxKey := key
        response := some ⟨.payloads [], .ok⟩ })

/-- R144: a SUBMIT that parses a frame that can never fit latches PAYLOAD_TOO_LARGE as soon as the header is parsed,
whether or not payload bytes are there; the diagnostic registers show it; no byte is lost. -/
def Obligations.SubmitDeclaredTooLargeLatches : Prop :=
  ∀ (s : State) (chunk : Bytes) (h : Nat) (n : Len64) (key : Option Key), s.rxFault = none →
    s.rxbuf.length + chunk.length ≤ s.params.rxBufCap →
    parse (s.rxbuf ++ chunk) s.role = .parsed h n key → s.params.rxBufCap < h + n.toNat →
    exec (.submit chunk) s = .next { s with
      rxbuf := s.rxbuf ++ chunk, lastRxLen := some n, lastRxKey := key, rxFault := some .payloadTooLarge
      response := some ⟨.payloads [], .payloadTooLarge⟩ }

/-- R145, R146: a SUBMIT that has the front frame whole takes exactly its h + n bytes off the front and answers its
payload, unmasked when the frame has a key. With ONE it ends there, OK. With ALL its answer is that payload and then
whatever an empty SUBMIT answers from there, status included (R159). -/
def Obligations.SubmitExtractsThenGoesOn : Prop :=
  ∀ (s : State) (chunk : Bytes) (h : Nat) (n : Len64) (key : Option Key), s.rxFault = none →
    s.rxbuf.length + chunk.length ≤ s.params.rxBufCap →
    parse (s.rxbuf ++ chunk) s.role = .parsed h n key → h + n.toNat ≤ (s.rxbuf ++ chunk).length →
    ∃ (t : State) (p : Bytes),
      p = maskIfKeyed key (((s.rxbuf ++ chunk).drop h).take n.toNat) ∧
      t = { s with rxbuf := (s.rxbuf ++ chunk).drop (h + n.toNat), lastRxLen := some n, lastRxKey := key,
                   response := some ⟨.payloads [p], .ok⟩ } ∧
      (s.params.drainPolicy = .one → exec (.submit chunk) s = .next t) ∧
      (s.params.drainPolicy = .all →
        ∃ (u : State) (qs : List Bytes) (status : Status),
          exec (.submit []) t = .next u ∧ u.response = some ⟨.payloads qs, status⟩ ∧
          exec (.submit chunk) s = .next { u with response := some ⟨.payloads (p :: qs), status⟩ })

/-- R22: no instruction but RESET reorders or rewrites buffered bytes. SUBMIT leaves a tail of what was there with the
chunk behind it; where a fault is latched or the chunk does not fit, it leaves what was there. A frame header leaves a
tail of what was there, which is the model's reading of a header as an instruction (DEDUCED, log 8); every other command
leaves the buffer alone. -/
def Obligations.BufferIsAppendedAndConsumedOnly : Prop :=
  ∀ (i : Instr) (s t : State), exec i s = .next t →
    match i with
    | .reset _ => t.rxbuf = []
    | .submit chunk =>
      if s.rxFault ≠ none ∨ s.params.rxBufCap < s.rxbuf.length + chunk.length then t.rxbuf = s.rxbuf
      else t.rxbuf <:+ s.rxbuf ++ chunk
    | .wrap _ => t.rxbuf = s.rxbuf
    | .maskApply _ _ => t.rxbuf = s.rxbuf
    | .parseHeader _ => t.rxbuf = s.rxbuf
    | .readTxKey => t.rxbuf = s.rxbuf
    | .readRxLast => t.rxbuf = s.rxbuf
    | .reserved => t.rxbuf = s.rxbuf
    | _ => t.rxbuf <:+ s.rxbuf

/-- R158 with DRAIN_POLICY = ALL: the status of a SUBMIT tells the PHASE it leaves; BLOCKED_LENGTH and FAILED are left
by no SUBMIT that fits. -/
def Obligations.StatusTellsThePhase : Prop :=
  ∀ (s : State) (chunk : Bytes), s.params.drainPolicy = .all →
    ∃ (t : State) (ps : List Bytes) (status : Status),
      exec (.submit chunk) s = .next t ∧ t.response = some ⟨.payloads ps, status⟩ ∧
      (match status with
        | .ok => t.phase = some .waitHeader ∨ t.phase = some .waitPayload
        | .unsupportedLengthScheme => t.phase = some .blockedLength
        | .framingFinClear => t.phase = some .failed ∧ t.rxFault = some (.framing .finClear)
        | .framingBadOpcode => t.phase = some .failed ∧ t.rxFault = some (.framing .badOpcode)
        | .framingMaskMismatch => t.phase = some .failed ∧ t.rxFault = some (.framing .maskMismatch)
        | .payloadTooLarge => t.phase = some .failed ∧ t.rxFault = some .payloadTooLarge
        | .incomplete => False
        | .refused => False) ∧
      (s.phase = some .failed → t.phase = some .failed ∧ ps = []) ∧
      (s.phase = some .blockedLength → s.rxbuf.length + chunk.length ≤ s.params.rxBufCap →
        t.phase = some .blockedLength ∧ ps = [] ∧ status = .unsupportedLengthScheme)

/-- R155: with DRAIN_POLICY = ALL and no fault, an empty chunk yields no payload and changes no register, and its status
is OK, or UNSUPPORTED_LENGTH_SCHEME where the front frame is blocked. From a state of the invariant (StepKeepsInv). -/
def Obligations.EmptySubmitChangesNothing : Prop :=
  ∀ (s : State), s.Inv → s.params.drainPolicy = .all → s.rxFault = none →
    exec (.submit []) s = .next { s with response := some ⟨.payloads [],
      if s.phase = some .blockedLength then .unsupportedLengthScheme else .ok⟩ }

/-- R151: over a stream of valid frames, with DRAIN_POLICY = ALL and room for the stream, any chunks that hold the first
bytes of the stream, however cut, give exactly the payloads of the frames that lie wholly within those bytes, in order,
each once and unmasked, with every status OK. For a whole stream that is every payload, for every cut. -/
def Obligations.ReassemblyIgnoresTheCuts : Prop :=
  ∀ (s : State) (frames : List (Bytes × Bytes)) (chunks : List Bytes),
    s.params.drainPolicy = .all → s.rxFault = none → s.rxbuf = [] →
    (∀ f ∈ frames, carries s.role f.1 f.2) →
    (frames.map Prod.fst).flatten.length ≤ s.params.rxBufCap →
    chunks.flatten <+: (frames.map Prod.fst).flatten →
    ∃ (k : Nat) (u : State) (statuses : List Status),
      k ≤ frames.length ∧
      ((frames.take k).map Prod.fst).flatten.length ≤ chunks.flatten.length ∧
      (k < frames.length → chunks.flatten.length < ((frames.take (k + 1)).map Prod.fst).flatten.length) ∧
      submitAll chunks s = some (u, (frames.take k).map Prod.snd, statuses) ∧
      (∀ status ∈ statuses, status = .ok) ∧ u.rxFault = none ∧
      u.rxbuf = chunks.flatten.drop ((frames.take k).map Prod.fst).flatten.length

/-- R152: the chunks of a strict prefix of one valid frame, however cut, yield no payload, under either drain policy and
whatever the capacity. -/
def Obligations.NoPayloadBeforeTheLastByte : Prop :=
  ∀ (s : State) (f payload : Bytes) (chunks : List Bytes), s.rxFault = none → s.rxbuf = [] →
    carries s.role f payload → chunks.flatten <+: f → chunks.flatten ≠ f →
    ∃ (u : State) (statuses : List Status), submitAll chunks s = some (u, [], statuses)

/-- R217: with DRAIN_POLICY = ALL and RX_BUF_CAP >= 65542 + MAX_CHUNK, a host that sends at most MAX_CHUNK bytes a
SUBMIT meets status OK, and so no PAYLOAD_TOO_LARGE, all along a stream of valid frames. -/
def Obligations.SizedBufferNeverOverflows : Prop :=
  ∀ (p : Params) (role : Role) (maxChunk : Nat) (frames : List (Bytes × Bytes)) (chunks : List Bytes),
    p.drainPolicy = .all → 65542 + maxChunk ≤ p.rxBufCap →
    (∀ f ∈ frames, carries role f.1 f.2) →
    (∀ c ∈ chunks, c.length ≤ maxChunk) →
    chunks.flatten <+: (frames.map Prod.fst).flatten →
    ∃ (u : State) (ps : List Bytes) (statuses : List Status),
      submitAll chunks (State.resetWith p role) = some (u, ps, statuses) ∧
      (∀ status ∈ statuses, status = .ok) ∧ u.rxbuf.length ≤ 65542

/-! ## Diagnostic reads and the reserved code -/

/-- R170, R171, R172: the reads answer the registers as they stand, ABSENT included, with status OK, whatever the PHASE,
and write no register. -/
def Obligations.ReadsAnswerTheRegisters : Prop :=
  ∀ (s : State),
    exec .readTxKey s = .next { s with response := some ⟨.txKey s.lastTxKey, .ok⟩ } ∧
    exec .readRxLast s = .next { s with response := some ⟨.rxLast s.lastRxLen s.lastRxKey, .ok⟩ }

/-- R74: the reserved command code changes no state and returns status REFUSED, code 0x7. That it is a next state,
and no refusal of the model, is the model's reading (DEDUCED, log 7). -/
def Obligations.ReservedCodeIsRefused : Prop :=
  ∀ (s : State), exec .reserved s = .next { s with response := some ⟨.empty, .refused⟩ } ∧
    Status.refused.code = 0x7

/-! ## Whole-machine rules -/

/-- R10, R41, R150, R186: every step, and every instruction from every state, ends in a next state: no access outside
its condition, no loop past its bound, no refusal. Frame headers as instructions, and a next state for the reserved code,
are the model's reading (DEDUCED, logs 8 and 7). -/
def Obligations.EveryInstructionCompletes : Prop :=
  (∀ s : State, ∃ t : State, step s = .next t) ∧ ∀ (i : Instr) (s : State), ∃ t : State, exec i s = .next t

/-- R10: one step runs the command the host issues next, taken off the queue, and is that instruction's meaning; with
none the codec waits unchanged (R31, R195). The queue is the model's (log 2). -/
def Obligations.StepRunsTheNextCommand : Prop :=
  (∀ (s : State) (c : Command) (rest : List Command),
    step { s with pending := c :: rest } = exec (decodeCommand c) { s with pending := rest }) ∧
  (∀ (s : State) (i : Instr) (c : Command) (rest : List Command), encode i = .command c →
    step { s with pending := c :: rest } = exec i { s with pending := rest }) ∧
  (∀ s : State, s.pending = [] → step s = .next s)

/-- R21, R213: ROLE changes by RESET alone, to its operand; RX_BUF_CAP and DRAIN_POLICY never change. -/
def Obligations.RoleChangesAtResetOnly : Prop :=
  ∀ (i : Instr) (s t : State), exec i s = .next t →
    t.params = s.params ∧ (t.role = s.role ∨ i = .reset t.role)

/-- R23, R188, R189: a latched RX_FAULT keeps its first code through every instruction but RESET, which clears it; and
only SUBMIT sets it, or a frame header run as an instruction, which is the model's reading (DEDUCED, log 8). -/
def Obligations.FaultKeepsItsFirstCode : Prop :=
  ∀ (i : Instr) (s t : State), exec i s = .next t →
    (∀ c, s.rxFault = some c → t.rxFault = some c ∨ (∃ role, i = .reset role ∧ t.rxFault = none)) ∧
    (s.rxFault = none → t.rxFault ≠ none → (∃ chunk, i = .submit chunk) ∨ i.isHeader = true)

/-- R50, R20: which registers each command may write. RESET may write all six (ResetSetsEveryRegister).
That a frame header, run as an instruction, writes what SUBMIT may is the model's reading (DEDUCED, log 8). -/
def Obligations.CommandsWriteOnlyTheirRegisters : Prop :=
  ∀ (i : Instr) (s t : State), exec i s = .next t →
    match i with
    | .reset _ => t.keyScript = s.keyScript ∧ t.keyDraws = s.keyDraws ∧ t.pending = s.pending
    | .wrap _ => t = { s with lastTxKey := t.lastTxKey, keyScript := t.keyScript, keyDraws := t.keyDraws,
                              response := t.response }
    | .maskApply _ _ => t = { s with response := t.response }
    | .parseHeader _ => t = { s with response := t.response }
    | .readTxKey => t = { s with response := t.response }
    | .readRxLast => t = { s with response := t.response }
    | .reserved => t = { s with response := t.response }
    | _ => t = { s with rxbuf := t.rxbuf, rxFault := t.rxFault, lastRxLen := t.lastRxLen,
                        lastRxKey := t.lastRxKey, response := t.response }

/-- R180: the codes of the statuses, and which statuses each command can return. That a frame header, run as an
instruction, answers a status of SUBMIT is the model's reading (DEDUCED, log 8). -/
def Obligations.StatusesEachCommandReturns : Prop :=
  (Status.ok.code = 0x0 ∧ Status.incomplete.code = 0x1 ∧ Status.framingFinClear.code = 0x2 ∧
    Status.framingBadOpcode.code = 0x3 ∧ Status.framingMaskMismatch.code = 0x4 ∧
    Status.unsupportedLengthScheme.code = 0x5 ∧ Status.payloadTooLarge.code = 0x6 ∧ Status.refused.code = 0x7) ∧
  ∀ (i : Instr) (s : State), ∃ (t : State) (r : Response), exec i s = .next t ∧ t.response = some r ∧
    match i with
    | .reset _ => r.status = .ok
    | .maskApply _ _ => r.status = .ok
    | .readTxKey => r.status = .ok
    | .readRxLast => r.status = .ok
    | .reserved => r.status = .refused
    | .wrap _ => r.status = .ok ∨ r.status = .unsupportedLengthScheme
    | .parseHeader _ => r.status ≠ .payloadTooLarge ∧ r.status ≠ .refused
    | _ => r.status ≠ .incomplete ∧ r.status ≠ .refused

/-- The invariant of an instance (R28, R29, R32, R42, R144, R157, R170) is kept by every step from every state.
That it takes R28 for DRAIN_POLICY = ALL only is the model's reading (DEDUCED, log 12). -/
def Obligations.StepKeepsInv : Prop :=
  ∀ (s t : State), s.Inv → step s = .next t → t.Inv

/-- The invariant holds of every instance as RESET leaves it, for every role and all parameters; State.reset is the
model's choice of one (DESIGN CHOICE, logs 4 and 5). -/
def Obligations.ResetHasInv : Prop :=
  (∀ (p : Params) (role : Role), (State.resetWith p role).Inv) ∧ State.reset.Inv

/-- R28 read for both drain policies. Expected to FAIL: with DRAIN_POLICY = ONE a SUBMIT returns after one extraction
without parsing what follows, so an INVALID frame can stand at the front with RX_FAULT = NONE (log 12). -/
def Obligations.NoFaultMeansFrontNotInvalid : Prop :=
  ∀ (p : Params) (role : Role) (chunks : List Bytes) (u : State) (ps : List Bytes) (statuses : List Status),
    submitAll chunks (State.resetWith p role) = some (u, ps, statuses) → u.rxFault = none →
    ∀ reason, parse u.rxbuf u.role ≠ .invalid reason
end

