-- ==== Sys2Proof/Laws/State.lean ====
section
/-! SUPPORT. What each update of the state does to each field: true by rfl, so that no proof unfolds an update. -/

namespace Sys2Proof.Machine

@[simp] theorem State.setRxbuf_role (b : Bytes) (s : State) : (s.setRxbuf b).role = s.role := rfl
@[simp] theorem State.setRxbuf_rxbuf (b : Bytes) (s : State) : (s.setRxbuf b).rxbuf = b := rfl
@[simp] theorem State.setRxbuf_rxFault (b : Bytes) (s : State) : (s.setRxbuf b).rxFault = s.rxFault := rfl
@[simp] theorem State.setRxbuf_lastTxKey (b : Bytes) (s : State) : (s.setRxbuf b).lastTxKey = s.lastTxKey := rfl
@[simp] theorem State.setRxbuf_lastRxLen (b : Bytes) (s : State) : (s.setRxbuf b).lastRxLen = s.lastRxLen := rfl
@[simp] theorem State.setRxbuf_lastRxKey (b : Bytes) (s : State) : (s.setRxbuf b).lastRxKey = s.lastRxKey := rfl
@[simp] theorem State.setRxbuf_params (b : Bytes) (s : State) : (s.setRxbuf b).params = s.params := rfl
@[simp] theorem State.setRxbuf_keyScript (b : Bytes) (s : State) : (s.setRxbuf b).keyScript = s.keyScript := rfl
@[simp] theorem State.setRxbuf_keyDraws (b : Bytes) (s : State) : (s.setRxbuf b).keyDraws = s.keyDraws := rfl
@[simp] theorem State.setRxbuf_pending (b : Bytes) (s : State) : (s.setRxbuf b).pending = s.pending := rfl
@[simp] theorem State.setRxbuf_response (b : Bytes) (s : State) : (s.setRxbuf b).response = s.response := rfl

@[simp] theorem State.latch_role (c : RxFault) (s : State) : (s.latch c).role = s.role := rfl
@[simp] theorem State.latch_rxbuf (c : RxFault) (s : State) : (s.latch c).rxbuf = s.rxbuf := rfl
@[simp] theorem State.latch_rxFault (c : RxFault) (s : State) : (s.latch c).rxFault = some c := rfl
@[simp] theorem State.latch_lastTxKey (c : RxFault) (s : State) : (s.latch c).lastTxKey = s.lastTxKey := rfl
@[simp] theorem State.latch_lastRxLen (c : RxFault) (s : State) : (s.latch c).lastRxLen = s.lastRxLen := rfl
@[simp] theorem State.latch_lastRxKey (c : RxFault) (s : State) : (s.latch c).lastRxKey = s.lastRxKey := rfl
@[simp] theorem State.latch_params (c : RxFault) (s : State) : (s.latch c).params = s.params := rfl
@[simp] theorem State.latch_keyScript (c : RxFault) (s : State) : (s.latch c).keyScript = s.keyScript := rfl
@[simp] theorem State.latch_keyDraws (c : RxFault) (s : State) : (s.latch c).keyDraws = s.keyDraws := rfl
@[simp] theorem State.latch_pending (c : RxFault) (s : State) : (s.latch c).pending = s.pending := rfl
@[simp] theorem State.latch_response (c : RxFault) (s : State) : (s.latch c).response = s.response := rfl

@[simp] theorem State.recordParsed_role (n : Len64) (key : Option Key) (s : State) : (s.recordParsed n key).role = s.role := rfl
@[simp] theorem State.recordParsed_rxbuf (n : Len64) (key : Option Key) (s : State) : (s.recordParsed n key).rxbuf = s.rxbuf := rfl
@[simp] theorem State.recordParsed_rxFault (n : Len64) (key : Option Key) (s : State) : (s.recordParsed n key).rxFault = s.rxFault := rfl
@[simp] theorem State.recordParsed_lastTxKey (n : Len64) (key : Option Key) (s : State) : (s.recordParsed n key).lastTxKey = s.lastTxKey := rfl
@[simp] theorem State.recordParsed_lastRxLen (n : Len64) (key : Option Key) (s : State) : (s.recordParsed n key).lastRxLen = some n := rfl
@[simp] theorem State.recordParsed_lastRxKey (n : Len64) (key : Option Key) (s : State) : (s.recordParsed n key).lastRxKey = key := rfl
@[simp] theorem State.recordParsed_params (n : Len64) (key : Option Key) (s : State) : (s.recordParsed n key).params = s.params := rfl
@[simp] theorem State.recordParsed_keyScript (n : Len64) (key : Option Key) (s : State) : (s.recordParsed n key).keyScript = s.keyScript := rfl
@[simp] theorem State.recordParsed_keyDraws (n : Len64) (key : Option Key) (s : State) : (s.recordParsed n key).keyDraws = s.keyDraws := rfl
@[simp] theorem State.recordParsed_pending (n : Len64) (key : Option Key) (s : State) : (s.recordParsed n key).pending = s.pending := rfl
@[simp] theorem State.recordParsed_response (n : Len64) (key : Option Key) (s : State) : (s.recordParsed n key).response = s.response := rfl

@[simp] theorem State.recordTxKey_role (key : Key) (s : State) : (s.recordTxKey key).role = s.role := rfl
@[simp] theorem State.recordTxKey_rxbuf (key : Key) (s : State) : (s.recordTxKey key).rxbuf = s.rxbuf := rfl
@[simp] theorem State.recordTxKey_rxFault (key : Key) (s : State) : (s.recordTxKey key).rxFault = s.rxFault := rfl
@[simp] theorem State.recordTxKey_lastTxKey (key : Key) (s : State) : (s.recordTxKey key).lastTxKey = some key := rfl
@[simp] theorem State.recordTxKey_lastRxLen (key : Key) (s : State) : (s.recordTxKey key).lastRxLen = s.lastRxLen := rfl
@[simp] theorem State.recordTxKey_lastRxKey (key : Key) (s : State) : (s.recordTxKey key).lastRxKey = s.lastRxKey := rfl
@[simp] theorem State.recordTxKey_params (key : Key) (s : State) : (s.recordTxKey key).params = s.params := rfl
@[simp] theorem State.recordTxKey_keyScript (key : Key) (s : State) : (s.recordTxKey key).keyScript = s.keyScript := rfl
@[simp] theorem State.recordTxKey_keyDraws (key : Key) (s : State) : (s.recordTxKey key).keyDraws = s.keyDraws := rfl
@[simp] theorem State.recordTxKey_pending (key : Key) (s : State) : (s.recordTxKey key).pending = s.pending := rfl
@[simp] theorem State.recordTxKey_response (key : Key) (s : State) : (s.recordTxKey key).response = s.response := rfl

@[simp] theorem State.respond_role (data : ResponseData) (status : Status) (s : State) : (s.respond data status).role = s.role := rfl
@[simp] theorem State.respond_rxbuf (data : ResponseData) (status : Status) (s : State) : (s.respond data status).rxbuf = s.rxbuf := rfl
@[simp] theorem State.respond_rxFault (data : ResponseData) (status : Status) (s : State) : (s.respond data status).rxFault = s.rxFault := rfl
@[simp] theorem State.respond_lastTxKey (data : ResponseData) (status : Status) (s : State) : (s.respond data status).lastTxKey = s.lastTxKey := rfl
@[simp] theorem State.respond_lastRxLen (data : ResponseData) (status : Status) (s : State) : (s.respond data status).lastRxLen = s.lastRxLen := rfl
@[simp] theorem State.respond_lastRxKey (data : ResponseData) (status : Status) (s : State) : (s.respond data status).lastRxKey = s.lastRxKey := rfl
@[simp] theorem State.respond_params (data : ResponseData) (status : Status) (s : State) : (s.respond data status).params = s.params := rfl
@[simp] theorem State.respond_keyScript (data : ResponseData) (status : Status) (s : State) : (s.respond data status).keyScript = s.keyScript := rfl
@[simp] theorem State.respond_keyDraws (data : ResponseData) (status : Status) (s : State) : (s.respond data status).keyDraws = s.keyDraws := rfl
@[simp] theorem State.respond_pending (data : ResponseData) (status : Status) (s : State) : (s.respond data status).pending = s.pending := rfl
@[simp] theorem State.respond_response (data : ResponseData) (status : Status) (s : State) : (s.respond data status).response = some ⟨data, status⟩ := rfl

@[simp] theorem State.issueNext_role (c : Command) (s : State) : (s.issueNext c).role = s.role := rfl
@[simp] theorem State.issueNext_rxbuf (c : Command) (s : State) : (s.issueNext c).rxbuf = s.rxbuf := rfl
@[simp] theorem State.issueNext_rxFault (c : Command) (s : State) : (s.issueNext c).rxFault = s.rxFault := rfl
@[simp] theorem State.issueNext_lastTxKey (c : Command) (s : State) : (s.issueNext c).lastTxKey = s.lastTxKey := rfl
@[simp] theorem State.issueNext_lastRxLen (c : Command) (s : State) : (s.issueNext c).lastRxLen = s.lastRxLen := rfl
@[simp] theorem State.issueNext_lastRxKey (c : Command) (s : State) : (s.issueNext c).lastRxKey = s.lastRxKey := rfl
@[simp] theorem State.issueNext_params (c : Command) (s : State) : (s.issueNext c).params = s.params := rfl
@[simp] theorem State.issueNext_keyScript (c : Command) (s : State) : (s.issueNext c).keyScript = s.keyScript := rfl
@[simp] theorem State.issueNext_keyDraws (c : Command) (s : State) : (s.issueNext c).keyDraws = s.keyDraws := rfl
@[simp] theorem State.issueNext_pending (c : Command) (s : State) : (s.issueNext c).pending = c :: s.pending := rfl
@[simp] theorem State.issueNext_response (c : Command) (s : State) : (s.issueNext c).response = s.response := rfl

@[simp] theorem State.resetWith_role (p : Params) (r : Role) : (State.resetWith p r).role = r := rfl
@[simp] theorem State.resetWith_rxbuf (p : Params) (r : Role) : (State.resetWith p r).rxbuf = [] := rfl
@[simp] theorem State.resetWith_rxFault (p : Params) (r : Role) : (State.resetWith p r).rxFault = none := rfl
@[simp] theorem State.resetWith_lastTxKey (p : Params) (r : Role) : (State.resetWith p r).lastTxKey = none := rfl
@[simp] theorem State.resetWith_lastRxLen (p : Params) (r : Role) : (State.resetWith p r).lastRxLen = none := rfl
@[simp] theorem State.resetWith_lastRxKey (p : Params) (r : Role) : (State.resetWith p r).lastRxKey = none := rfl
@[simp] theorem State.resetWith_params (p : Params) (r : Role) : (State.resetWith p r).params = p := rfl
@[simp] theorem State.resetWith_keyScript (p : Params) (r : Role) : (State.resetWith p r).keyScript = [] := rfl
@[simp] theorem State.resetWith_keyDraws (p : Params) (r : Role) : (State.resetWith p r).keyDraws = 0 := rfl
@[simp] theorem State.resetWith_pending (p : Params) (r : Role) : (State.resetWith p r).pending = [] := rfl
@[simp] theorem State.resetWith_response (p : Params) (r : Role) : (State.resetWith p r).response = none := rfl

/-- A draw changes the key source only (R106). -/
@[simp] theorem State.afterDraw_role (s : State) : s.afterDraw.role = s.role := by
  unfold State.afterDraw; split <;> rfl
@[simp] theorem State.afterDraw_rxbuf (s : State) : s.afterDraw.rxbuf = s.rxbuf := by
  unfold State.afterDraw; split <;> rfl
@[simp] theorem State.afterDraw_rxFault (s : State) : s.afterDraw.rxFault = s.rxFault := by
  unfold State.afterDraw; split <;> rfl
@[simp] theorem State.afterDraw_lastTxKey (s : State) : s.afterDraw.lastTxKey = s.lastTxKey := by
  unfold State.afterDraw; split <;> rfl
@[simp] theorem State.afterDraw_lastRxLen (s : State) : s.afterDraw.lastRxLen = s.lastRxLen := by
  unfold State.afterDraw; split <;> rfl
@[simp] theorem State.afterDraw_lastRxKey (s : State) : s.afterDraw.lastRxKey = s.lastRxKey := by
  unfold State.afterDraw; split <;> rfl
@[simp] theorem State.afterDraw_params (s : State) : s.afterDraw.params = s.params := by
  unfold State.afterDraw; split <;> rfl
@[simp] theorem State.afterDraw_pending (s : State) : s.afterDraw.pending = s.pending := by
  unfold State.afterDraw; split <;> rfl
@[simp] theorem State.afterDraw_response (s : State) : s.afterDraw.response = s.response := by
  unfold State.afterDraw; split <;> rfl

/-- A second write of RXBUF replaces the first. -/
@[simp] theorem State.setRxbuf_setRxbuf (a b : Bytes) (s : State) : (s.setRxbuf a).setRxbuf b = s.setRxbuf b := rfl

/-- Writing RXBUF as it is changes nothing. -/
@[simp] theorem State.setRxbuf_self (s : State) : s.setRxbuf s.rxbuf = s := rfl

/-- A second response replaces the first. -/
@[simp] theorem State.respond_respond (d d' : ResponseData) (st st' : Status) (s : State) :
    (s.respond d st).respond d' st' = s.respond d' st' := rfl

/-- A scripted draw gives the script's next key. -/
theorem State.nextKey_scripted (s : State) (k : Key) (ks : List Key) (h : s.keyScript = k :: ks) : s.nextKey = k := by
  simp [State.nextKey, h]

/-- A free draw gives the free value numbered by the count of free draws. -/
theorem State.nextKey_free (s : State) (h : s.keyScript = []) : s.nextKey = Config.keySource s.keyDraws := by
  simp [State.nextKey, h]

end Sys2Proof.Machine
end

