-- ==== Sys2Proof/Laws/Decode.lean ====
section
/-! SUPPORT. The class table of R75 read field by field, and the fields of the bytes the encoder builds. -/

namespace Sys2Proof
open Machine

/-- The low byte of H is byte 1 (R75). -/
theorem headerWord_extract_low (b0 b1 : Byte) (i n : Nat) (h : i + n ≤ 8) :
    (headerWord b0 b1).extractLsb' i n = b1.extractLsb' i n := by
  apply BitVec.eq_of_getLsbD_eq
  intro j hj
  simp only [headerWord, BitVec.getLsbD_extractLsb', BitVec.getLsbD_append, hj, decide_true, Bool.true_and]
  rw [if_pos (by omega)]

/-- The high byte of H is byte 0 (R75). -/
theorem headerWord_extract_high (b0 b1 : Byte) (i n : Nat) (_h : i + n ≤ 8) :
    (headerWord b0 b1).extractLsb' (8 + i) n = b0.extractLsb' i n := by
  apply BitVec.eq_of_getLsbD_eq
  intro j hj
  simp only [headerWord, BitVec.getLsbD_extractLsb', BitVec.getLsbD_append, hj, decide_true, Bool.true_and]
  rw [if_neg (by omega)]
  congr 1; omega

/-- A bit is 0 or 1. -/
theorem bit_cases (b : BitVec 1) : b = 0#1 ∨ b = 1#1 := by
  revert b; decide

/-- Byte 0's fields are those it was built from (R61). -/
theorem byte0_fields (f : BitVec 1) (r : BitVec 3) (o : BitVec 4) :
    (headerByte0 f r o).extractLsb' 7 1 = f ∧ (headerByte0 f r o).extractLsb' 4 3 = r ∧ (headerByte0 f r o).extractLsb' 0 4 = o := by
  revert f r o; decide

/-- Byte 1's fields are those it was built from (R61). -/
theorem byte1_fields (m : BitVec 1) (l : BitVec 7) :
    (headerByte1 m l).extractLsb' 7 1 = m ∧ (headerByte1 m l).extractLsb' 0 7 = l := by
  revert m l; decide

/-- Byte 0 is built from its own fields: no bit of it is outside FIN, RSV and OPCODE (R61). -/
theorem byte0_split (b : Byte) : headerByte0 (b.extractLsb' 7 1) (b.extractLsb' 4 3) (b.extractLsb' 0 4) = b := by
  revert b; decide
/-- Byte 1 is built from its own fields: no bit of it is outside MASK and LEN7 (R61). -/
theorem byte1_split (b : Byte) : headerByte1 (b.extractLsb' 7 1) (b.extractLsb' 0 7) = b := by
  revert b; decide

/-- A match on H is a match on each byte. -/
theorem headerWord_mask (b0 b1 c0 c1 p0 p1 : Byte) :
  (headerWord b0 b1 &&& headerWord c0 c1 = headerWord p0 p1) ↔ (b0 &&& c0 = p0 ∧ b1 &&& c1 = p1) := by
  have hi : ∀ a b : Byte, (headerWord a b).extractLsb' 8 8 = a := fun a b => by
    rw [headerWord_extract_high a b 0 8 (by omega)]; revert a; decide
  have lo : ∀ a b : Byte, (headerWord a b).extractLsb' 0 8 = b := fun a b => by
    rw [headerWord_extract_low a b 0 8 (by omega)]; revert b; decide
  have hand : headerWord b0 b1 &&& headerWord c0 c1 = headerWord (b0 &&& c0) (b1 &&& c1) := by
    apply BitVec.eq_of_getLsbD_eq
    intro i _
    simp only [headerWord, BitVec.getLsbD_and, BitVec.getLsbD_append]
    split <;> rfl
  rw [hand]
  constructor
  · intro h
    constructor
    · rw [← hi (b0 &&& c0) (b1 &&& c1), h, hi]
    · rw [← lo (b0 &&& c0) (b1 &&& c1), h, lo]
  · rintro ⟨rfl, rfl⟩; rfl


/-- Row 1's match and mask say FIN = 0. -/
theorem row_fin_clear (b0 b1 : Byte) :
    (headerWord b0 b1 &&& 0x8000#16 = 0x0000#16) ↔ b0.extractLsb' 7 1 = 0#1 := by
  have h : ∀ a b : Byte, (a &&& 0x80#8 = 0 ∧ b &&& 0 = (0 : Byte)) ↔ a.extractLsb' 7 1 = 0 := by
    intro a b; revert a; simp; decide
  exact (headerWord_mask b0 b1 0x80 0 0 0).trans (h b0 b1)

/-- Row 2's match and mask say FIN = 1. -/
theorem row_fin_set (b0 b1 : Byte) :
    (headerWord b0 b1 &&& 0x8000#16 = 0x8000#16) ↔ b0.extractLsb' 7 1 = 1#1 := by
  have h : ∀ a b : Byte, (a &&& 0x80#8 = 0x80 ∧ b &&& 0 = (0 : Byte)) ↔ a.extractLsb' 7 1 = 1 := by
    intro a b; revert a; simp; decide
  exact (headerWord_mask b0 b1 0x80 0 0x80 0).trans (h b0 b1)

/-- The high half of rows 3 to 6 says FIN = 1 and OPCODE = 2. -/
theorem byte0_binary (b : Byte) : (b &&& 0x8F#8 = 0x82#8) ↔ (b.extractLsb' 7 1 = 1#1 ∧ b.extractLsb' 0 4 = 2#4) := by
  revert b; decide

/-- The low half of rows 3 and 6 says which MASK bit. -/
theorem byte1_mask_bit (b : Byte) (m : BitVec 1) : (b &&& 0x80#8 = headerByte1 m 0) ↔ b.extractLsb' 7 1 = m := by
  revert b m; decide

/-- The low half of rows 4 and 5 says which MASK bit and LEN7. -/
theorem byte1_whole (b : Byte) (m : BitVec 1) (l : BitVec 7) :
    (b &&& 0xFF#8 = headerByte1 m l) ↔ (b.extractLsb' 7 1 = m ∧ b.extractLsb' 0 7 = l) := by
  have hb : b &&& 0xFF#8 = b := by revert b; decide
  rw [hb]
  constructor
  · rintro rfl; exact byte1_fields m l
  · rintro ⟨rfl, rfl⟩; exact (byte1_split b).symm

/-- The mask of rows 3 and 6, by bytes. -/
theorem headerWord_8F80 : headerWord 0x8F 0x80 = 0x8F80#16 := by decide
/-- The mask of rows 4 and 5, by bytes. -/
theorem headerWord_8FFF : headerWord 0x8F 0xFF = 0x8FFF#16 := by decide

/-- Rows 3 and 6's match and mask, in fields. -/
theorem row_mask_bit (b0 b1 : Byte) (m : BitVec 1) :
    (headerWord b0 b1 &&& 0x8F80#16 = headerWord 0x82 (headerByte1 m 0)) ↔
      ((b0.extractLsb' 7 1 = 1#1 ∧ b0.extractLsb' 0 4 = 2#4) ∧ b1.extractLsb' 7 1 = m) := by
  rw [← byte0_binary, ← byte1_mask_bit]
  rw [← headerWord_8F80]
  exact headerWord_mask b0 b1 0x8F 0x80 0x82 _

/-- Rows 4 and 5's match and mask, in fields. -/
theorem row_whole_byte1 (b0 b1 : Byte) (m : BitVec 1) (l : BitVec 7) :
    (headerWord b0 b1 &&& 0x8FFF#16 = headerWord 0x82 (headerByte1 m l)) ↔
      ((b0.extractLsb' 7 1 = 1#1 ∧ b0.extractLsb' 0 4 = 2#4) ∧ b1.extractLsb' 7 1 = m ∧ b1.extractLsb' 0 7 = l) := by
  rw [← byte0_binary, ← byte1_whole]
  rw [← headerWord_8FFF]
  exact headerWord_mask b0 b1 0x8F 0xFF 0x82 _

/-- The class table of R75 by the fields of bytes 0 and 1: every pair of bytes has a class. -/
theorem classify_fields (role : Role) (b0 b1 : Byte) :
    classify role (headerWord b0 b1) =
      if b0.extractLsb' 7 1 = 0#1 then some .rejectFinClear
      else if b0.extractLsb' 0 4 ≠ 2#4 then some .rejectOpcode
      else match role with
        | .nonMasking =>
          if b1.extractLsb' 7 1 = 0#1 then some .rejectMaskNm
          else if b1.extractLsb' 0 7 = 127#7 then some .lenExt64Nm
          else if b1.extractLsb' 0 7 = 126#7 then some .lenExt16Nm
          else some .lenShortNm
        | .masking =>
          if b1.extractLsb' 7 1 = 1#1 then some .rejectMaskM
          else if b1.extractLsb' 0 7 = 127#7 then some .lenExt64M
          else if b1.extractLsb' 0 7 = 126#7 then some .lenExt16M
          else some .lenShortM := by
  have hop : hOpcode (headerWord b0 b1) = b0.extractLsb' 0 4 := headerWord_extract_high b0 b1 0 4 (by omega)
  have hm0 := row_mask_bit b0 b1 0
  have hm1 := row_mask_bit b0 b1 1
  have h127 := fun m => row_whole_byte1 b0 b1 m 127
  have h126 := fun m => row_whole_byte1 b0 b1 m 126
  rw [show headerWord 0x82 (headerByte1 0 0) = 0x8200#16 from by decide] at hm0
  rw [show headerWord 0x82 (headerByte1 1 0) = 0x8280#16 from by decide] at hm1
  have a0 := h127 0
  have a1 := h127 1
  have c0 := h126 0
  have c1 := h126 1
  rw [show headerWord 0x82 (headerByte1 0 127) = 0x827F#16 from by decide] at a0
  rw [show headerWord 0x82 (headerByte1 1 127) = 0x82FF#16 from by decide] at a1
  rw [show headerWord 0x82 (headerByte1 0 126) = 0x827E#16 from by decide] at c0
  rw [show headerWord 0x82 (headerByte1 1 126) = 0x82FE#16 from by decide] at c1
  have f0 := row_fin_clear b0 b1
  have f1 := row_fin_set b0 b1
  have hfin : b0.extractLsb' 7 1 = 0#1 ∨ b0.extractLsb' 7 1 = 1#1 := bit_cases _
  have hmask : b1.extractLsb' 7 1 = 0#1 ∨ b1.extractLsb' 7 1 = 1#1 := bit_cases _
  generalize b0.extractLsb' 7 1 = fin at *
  generalize b0.extractLsb' 0 4 = op at *
  generalize b1.extractLsb' 7 1 = m at *
  generalize b1.extractLsb' 0 7 = l at *
  generalize headerWord b0 b1 = h at *
  by_cases hop2 : op = 2#4 <;> by_cases hl7 : l = 127#7 <;> by_cases hl6 : l = 126#7 <;>
    obtain rfl | rfl := hfin <;> obtain rfl | rfl := hmask <;> cases role <;>
    simp [classify, headerTable, HeaderRow.hits, *]

end Sys2Proof
end

