-- ==== Sys2Proof/Laws/Ops.lean ====
section
/-! SUPPORT. One lemma per shared operation that says all it can do, and that every access keeps the store's form. -/

namespace Sys2Proof.Machine

/-- MemRead answers exactly when its condition holds, with the bytes named (R41). -/
theorem memRead_ok_iff (a n : Nat) (s : State) (p : Bytes) :
    memRead a n s = .ok p ↔ a + n ≤ s.rxbuf.length ∧ p = (s.rxbuf.drop a).take n := by
  unfold memRead; split <;> simp_all [eq_comm]

/-- A payload read by MemRead has the length asked for. -/
theorem memRead_length (a n : Nat) (s : State) (p : Bytes) (h : memRead a n s = .ok p) : p.length = n := by
  obtain ⟨hle, rfl⟩ := (memRead_ok_iff a n s p).1 h
  simp; omega

/-- MemAppend answers exactly when its condition holds (R41, R42). -/
theorem memAppend_ok_iff (x : Bytes) (s t : State) :
    memAppend x s = .ok t ↔
      s.rxbuf.length + x.length ≤ s.params.rxBufCap ∧ t = s.setRxbuf (s.rxbuf ++ x) := by
  unfold memAppend; split <;> simp_all [eq_comm]

/-- MemConsume answers exactly when its condition holds (R41). -/
theorem memConsume_ok_iff (n : Nat) (s t : State) :
    memConsume n s = .ok t ↔ n ≤ s.rxbuf.length ∧ t = s.setRxbuf (s.rxbuf.drop n) := by
  unfold memConsume; split <;> simp_all [eq_comm]

/-- MemAppend keeps `len(RXBUF) <= RX_BUF_CAP` (R42). -/
theorem memAppend_bufferFits (x : Bytes) (s t : State) (h : memAppend x s = .ok t) : t.bufferFits := by
  obtain ⟨hle, rfl⟩ := (memAppend_ok_iff x s t).1 h
  simpa [State.bufferFits] using hle

/-- MemConsume keeps `len(RXBUF) <= RX_BUF_CAP` (R42). -/
theorem memConsume_bufferFits (n : Nat) (s t : State) (hs : s.bufferFits) (h : memConsume n s = .ok t) :
    t.bufferFits := by
  obtain ⟨-, rfl⟩ := (memConsume_ok_iff n s t).1 h
  simp only [State.bufferFits, State.setRxbuf_rxbuf, State.setRxbuf_params, List.length_drop] at *
  omega

/-- The store after reset is well formed (R210). -/
theorem resetWith_bufferFits (p : Params) (r : Role) : (State.resetWith p r).bufferFits := by
  simp [State.bufferFits]

/-- The pad applied from any phase keeps the length (R92). -/
@[simp] theorem maskFrom_length (key : Key) (phase : Nat) (x : Bytes) : (maskFrom key phase x).length = x.length := by
  induction x generalizing phase with
  | nil => rfl
  | cons b rest ih => simp [maskFrom, ih]

/-- The pad applied from a phase, byte by byte (R95). -/
theorem maskFrom_getElem? (key : Key) (phase : Nat) (x : Bytes) (i : Nat) :
    (maskFrom key phase x)[i]? = x[i]?.map (fun b => b ^^^ keyByte key ((phase + i) % 4)) := by
  induction x generalizing phase i with
  | nil => simp [maskFrom]
  | cons b rest ih =>
    cases i with
    | zero => simp [maskFrom]
    | succ i => simp [maskFrom, ih, Nat.add_assoc, Nat.add_comm 1 i]

/-- A payload keeps its length whether or not its frame is masked (R67, R92). -/
@[simp] theorem maskIfKeyed_length (key : Option Key) (x : Bytes) : (maskIfKeyed key x).length = x.length := by
  cases key <;> simp [maskIfKeyed, maskApply]

end Sys2Proof.Machine
end

