-- ==== Sys2Proof/Laws/PerInstr.lean ====
section
/-! SUPPORT. The per-instruction family EncodesRow: the encoding of each constructor has the bits its row of
opcode_table.json fixes, and the size R61's layouts give it. -/

namespace Sys2Proof.Laws.EncodesRow

/-- What a row of opcode_table.json fixes: match, mask and header size in bytes, or a command code. -/
inductive RowBits where
  | header (pattern care : BitVec 16) (size : Nat)
  | command (code : BitVec 3)

/-- The columns "match", "mask" and "encoding" of the row, and the header length of R61's layouts (two bytes for a class
that needs no more). -/
def row : Instr → RowBits
  | .rejectFinClear _ _ _ _ => .header 0x0000 0x8000 2
  | .rejectOpcode _ _ _ _ => .header 0x8000 0x8000 2
  | .rejectMaskNm _ _ => .header 0x8200 0x8F80 2
  | .lenExt64Nm _ => .header 0x82FF 0x8FFF 2
  | .lenExt16Nm _ _ _ => .header 0x82FE 0x8FFF 8
  | .lenShortNm _ _ _ => .header 0x8280 0x8F80 6
  | .rejectMaskM _ _ => .header 0x8280 0x8F80 2
  | .lenExt64M _ => .header 0x827F 0x8FFF 2
  | .lenExt16M _ _ => .header 0x827E 0x8FFF 4
  | .lenShortM _ _ => .header 0x8200 0x8F80 2
  | .reset _ => .command 0b000
  | .submit _ => .command 0b001
  | .wrap _ => .command 0b010
  | .maskApply _ _ => .command 0b011
  | .parseHeader _ => .command 0b100
  | .readTxKey => .command 0b101
  | .readRxLast => .command 0b110
  | .reserved => .command 0b111

/-- An encoding has the bits and the size of a row. -/
def Fits : RowBits → Encoding → Prop
  | .header pattern care size, .header w =>
    w.length = size ∧ ∃ b0 b1 rest, w = b0 :: b1 :: rest ∧ headerWord b0 b1 &&& care = pattern
  | .command code, .command c => c.code = code
  | _, _ => False

/-- The instruction's encoding fits its row. -/
def Statement (i : Instr) : Prop := Fits (row i) (encode i)

/-- Bytes 0 and 1 of a header with FIN = 1 and OPCODE = 2 match the rows that fix MASK alone. -/
theorem fits_mask_bit (rsv : BitVec 3) (m : BitVec 1) (len7 : BitVec 7) :
    headerWord (headerByte0 1 rsv 2) (headerByte1 m len7) &&& 0x8F80#16 = headerWord 0x82 (headerByte1 m 0) :=
  (row_mask_bit _ _ m).2 ⟨⟨(byte0_fields 1 rsv 2).1, (byte0_fields 1 rsv 2).2.2⟩, (byte1_fields m len7).1⟩

/-- Bytes 0 and 1 of a header with FIN = 1 and OPCODE = 2 match the rows that fix all of byte 1. -/
theorem fits_whole_byte1 (rsv : BitVec 3) (m : BitVec 1) (len7 : BitVec 7) :
    headerWord (headerByte0 1 rsv 2) (headerByte1 m len7) &&& 0x8FFF#16 = headerWord 0x82 (headerByte1 m len7) :=
  (row_whole_byte1 _ _ m len7).2
    ⟨⟨(byte0_fields 1 rsv 2).1, (byte0_fields 1 rsv 2).2.2⟩, byte1_fields m len7⟩

theorem rejectFinClear (rsv : BitVec 3) (opcode : BitVec 4) (mask : BitVec 1) (len7 : BitVec 7) :
    Statement (.rejectFinClear rsv opcode mask len7) :=
  ⟨rfl, _, _, _, rfl, (row_fin_clear _ _).2 (byte0_fields 0 rsv opcode).1⟩

theorem rejectOpcode (rsv : BitVec 3) (opcode : BitVec 4) (mask : BitVec 1) (len7 : BitVec 7) :
    Statement (.rejectOpcode rsv opcode mask len7) :=
  ⟨rfl, _, _, _, rfl, (row_fin_set _ _).2 (byte0_fields 1 rsv opcode).1⟩

theorem rejectMaskNm (rsv : BitVec 3) (len7 : BitVec 7) : Statement (.rejectMaskNm rsv len7) :=
  ⟨rfl, _, _, _, rfl, fits_mask_bit rsv 0 len7⟩

theorem lenExt64Nm (rsv : BitVec 3) : Statement (.lenExt64Nm rsv) :=
  ⟨rfl, _, _, _, rfl, fits_whole_byte1 rsv 1 127⟩

theorem lenExt16Nm (rsv : BitVec 3) (len16 : BitVec 16) (key : Key) : Statement (.lenExt16Nm rsv len16 key) :=
  ⟨rfl, _, _, _, rfl, fits_whole_byte1 rsv 1 126⟩

theorem lenShortNm (rsv : BitVec 3) (len7 : BitVec 7) (key : Key) : Statement (.lenShortNm rsv len7 key) :=
  ⟨rfl, _, _, _, rfl, fits_mask_bit rsv 1 len7⟩

theorem rejectMaskM (rsv : BitVec 3) (len7 : BitVec 7) : Statement (.rejectMaskM rsv len7) :=
  ⟨rfl, _, _, _, rfl, fits_mask_bit rsv 1 len7⟩

theorem lenExt64M (rsv : BitVec 3) : Statement (.lenExt64M rsv) :=
  ⟨rfl, _, _, _, rfl, fits_whole_byte1 rsv 0 127⟩

theorem lenExt16M (rsv : BitVec 3) (len16 : BitVec 16) : Statement (.lenExt16M rsv len16) :=
  ⟨rfl, _, _, _, rfl, fits_whole_byte1 rsv 0 126⟩

theorem lenShortM (rsv : BitVec 3) (len7 : BitVec 7) : Statement (.lenShortM rsv len7) :=
  ⟨rfl, _, _, _, rfl, fits_mask_bit rsv 0 len7⟩

theorem reset (role : Role) : Statement (.reset role) := rfl

theorem submit (chunk : Bytes) : Statement (.submit chunk) := rfl

theorem wrap (payload : Bytes) : Statement (.wrap payload) := rfl

theorem maskApply (data : Bytes) (key : Key) : Statement (.maskApply data key) := rfl

theorem parseHeader (window : Bytes) : Statement (.parseHeader window) := rfl

theorem readTxKey : Statement .readTxKey := rfl

theorem readRxLast : Statement .readRxLast := rfl

theorem reserved : Statement .reserved := rfl

end Sys2Proof.Laws.EncodesRow
end

