-- ==== Sys2Proof/Laws/Receiver.lean ====
section
/-! SUPPORT. What Parse can answer, and what one pass of SUBMIT's loop can do. -/

namespace Sys2Proof.Machine

/-- A PARSED outcome: its header length is that of R63, its header is present, and its declared length is in range. -/
theorem parseKeyed_parsed (w : Bytes) (ext : Nat) (n n' : Len64) (h : Nat) (key : Option Key)
    (hp : parseKeyed w ext n = .parsed h n' key) :
    h = headerLength ext (maskField w) ∧ h ≤ w.length ∧ n' = n ∧
      key = (if maskField w = 1 then some (keyField w ext) else none) := by
  unfold parseKeyed at hp
  split at hp
  · cases hp
  · rename_i hlt
    injection hp with h1 h2 h3
    subst h1 h2 h3
    exact ⟨rfl, by omega, rfl, rfl⟩

/-- parseKeyed answers INCOMPLETE or PARSED only. -/
theorem parseKeyed_cases (w : Bytes) (ext : Nat) (n : Len64) :
    parseKeyed w ext n = .incomplete ∨ ∃ h key, parseKeyed w ext n = .parsed h n key := by
  unfold parseKeyed; split
  · exact .inl rfl
  · exact .inr ⟨_, _, rfl⟩

/-- The bounds on a PARSED outcome (R8, R63, R132): 2 <= h <= 8, the header is present, n <= 65535. -/
theorem parse_parsed_bounds (w : Bytes) (role : Role) (h : Nat) (n : Len64) (key : Option Key)
    (hp : parse w role = .parsed h n key) : 2 ≤ h ∧ h ≤ 8 ∧ h ≤ w.length ∧ n.toNat ≤ 65535 := by
  have hh : ∀ ext, 2 ≤ headerLength ext (maskField w) ∧ headerLength ext (maskField w) ≤ 6 + ext := by
    intro ext; unfold headerLength; split <;> omega
  unfold parse at hp
  split at hp; · cases hp
  split at hp; · cases hp
  split at hp; · cases hp
  split at hp; · cases hp
  split at hp; · cases hp
  split at hp
  · split at hp; · cases hp
    obtain ⟨rfl, hlen, rfl, -⟩ := parseKeyed_parsed w 2 _ n h key hp
    have hb := hh 2
    refine ⟨hb.1, hb.2, hlen, ?_⟩
    simp only [len16Field, BitVec.toNat_setWidth]
    have := (joinLen16 (byteAt w 2) (byteAt w 3)).isLt
    omega
  · obtain ⟨rfl, hlen, rfl, -⟩ := parseKeyed_parsed w 0 _ n h key hp
    have hb := hh 0
    refine ⟨hb.1, by omega, hlen, ?_⟩
    simp only [BitVec.toNat_setWidth]
    have := (len7Field w).isLt
    omega

/-- Extraction succeeds whenever the frame is wholly in RXBUF (R145), and takes exactly its bytes. -/
theorem extractFrame_ok (h n : Nat) (key : Option Key) (s : State) (out : List Bytes) (hle : h + n ≤ s.rxbuf.length) :
    extractFrame h n key s out =
      .ok (match s.params.drainPolicy with
        | .one => .done (s.setRxbuf (s.rxbuf.drop (h + n)))
            (out ++ [maskIfKeyed key ((s.rxbuf.drop h).take n)]) .ok
        | .all => .again (s.setRxbuf (s.rxbuf.drop (h + n)))
            (out ++ [maskIfKeyed key ((s.rxbuf.drop h).take n)])) := by
  simp only [extractFrame, memRead, memConsume, hle, if_true]
  cases s.params.drainPolicy <;> rfl

/-- All that one pass can come to (R140): waiting, latching, reporting or extracting. -/
theorem runPass_cases (r : ParseOutcome) (s : State) (out : List Bytes) :
    (r = .incomplete ∧ runPass r s out = .ok (.done s out .ok)) ∨
    (∃ reason, r = .invalid reason ∧
      runPass r s out = .ok (.done (s.latch (.framing reason)) out reason.status)) ∨
    (r = .unsupportedLength ∧ runPass r s out = .ok (.done s out .unsupportedLengthScheme)) ∨
    (∃ h n key, r = .parsed h n key ∧ s.params.rxBufCap < h + n.toNat ∧
      runPass r s out = .ok (.done ((s.recordParsed n key).latch .payloadTooLarge) out .payloadTooLarge)) ∨
    (∃ h n key, r = .parsed h n key ∧ h + n.toNat ≤ s.params.rxBufCap ∧ s.rxbuf.length < h + n.toNat ∧
      runPass r s out = .ok (.done (s.recordParsed n key) out .ok)) ∨
    (∃ h n key, r = .parsed h n key ∧ h + n.toNat ≤ s.params.rxBufCap ∧ h + n.toNat ≤ s.rxbuf.length ∧
      runPass r s out = extractFrame h n.toNat key (s.recordParsed n key) out) := by
  cases r with
  | incomplete => exact .inl ⟨rfl, rfl⟩
  | invalid reason => exact .inr (.inl ⟨reason, rfl, rfl⟩)
  | unsupportedLength => exact .inr (.inr (.inl ⟨rfl, rfl⟩))
  | parsed h n key =>
    refine .inr (.inr (.inr ?_))
    by_cases h1 : h + n.toNat > s.params.rxBufCap
    · exact .inl ⟨h, n, key, rfl, h1, by simp [runPass, passParsed, h1]⟩
    · by_cases h2 : s.rxbuf.length < h + n.toNat
      · exact .inr (.inl ⟨h, n, key, rfl, by omega, h2, by simp [runPass, passParsed, h1, h2]⟩)
      · exact .inr (.inr ⟨h, n, key, rfl, by omega, by omega, by simp [runPass, passParsed, h1, h2]⟩)

/-- A pass never stops the model: its accesses are within their conditions (R41). -/
theorem runPass_ne_error (r : ParseOutcome) (s : State) (out : List Bytes) (f : Fault) : runPass r s out ≠ .error f := by
  obtain ⟨-, h⟩ | ⟨_, -, h⟩ | ⟨-, h⟩ | ⟨_, _, _, -, -, h⟩ | ⟨_, _, _, -, -, -, h⟩ | ⟨hl, n, key, -, -, hle, h⟩ :=
    runPass_cases r s out <;> rw [h]
  all_goals try simp
  rw [extractFrame_ok _ _ _ _ _ (by simpa using hle)]
  simp

/-- A pass touches the receiver's registers only: ROLE, the parameters, the writer's and the host's side stay (R59). -/
theorem runPass_frame (r : ParseOutcome) (s t : State) (out out' : List Bytes) (st : Status)
    (h : runPass r s out = .ok (.done t out' st) ∨ runPass r s out = .ok (.again t out')) :
    t = { s with rxbuf := t.rxbuf, rxFault := t.rxFault, lastRxLen := t.lastRxLen, lastRxKey := t.lastRxKey } := by
  obtain ⟨-, e⟩ | ⟨_, -, e⟩ | ⟨-, e⟩ | ⟨_, _, _, -, -, e⟩ | ⟨_, _, _, -, -, -, e⟩ | ⟨hl, n, key, -, -, hle, e⟩ :=
    runPass_cases r s out <;> rw [e] at h
  case inr.inr.inr.inr.inr =>
    rw [extractFrame_ok _ _ _ _ _ (by simpa using hle)] at h
    cases hd : (s.recordParsed n key).params.drainPolicy <;> (rw [hd] at h; obtain h | h := h <;> cases h <;> rfl)
  all_goals obtain h | h := h <;> cases h <;> rfl

/-- A pass that goes on has taken a frame of at least two bytes off the front, and policy is ALL (R146, R150). -/
theorem runPass_again (w : Bytes) (s t : State) (out out' : List Bytes)
    (h : runPass (parse w s.role) s out = .ok (.again t out')) :
    s.params.drainPolicy = .all ∧ ∃ hl n key, parse w s.role = .parsed hl n key ∧
      hl + n.toNat ≤ s.params.rxBufCap ∧ hl + n.toNat ≤ s.rxbuf.length ∧ 2 ≤ hl ∧
      t = (s.recordParsed n key).setRxbuf (s.rxbuf.drop (hl + n.toNat)) ∧
      out' = out ++ [maskIfKeyed key ((s.rxbuf.drop hl).take n.toNat)] := by
  obtain ⟨-, e⟩ | ⟨_, -, e⟩ | ⟨-, e⟩ | ⟨_, _, _, -, -, e⟩ | ⟨_, _, _, -, -, -, e⟩ | ⟨hl, n, key, hp, hc, hle, e⟩ :=
    runPass_cases (parse w s.role) s out <;> rw [e] at h
  case inr.inr.inr.inr.inr =>
    rw [extractFrame_ok _ _ _ _ _ (by simpa using hle)] at h
    simp only [State.recordParsed_params] at h
    cases hd : s.params.drainPolicy <;> rw [hd] at h <;> cases h
    exact ⟨rfl, hl, n, key, hp, hc, hle, (parse_parsed_bounds _ _ _ _ _ hp).1, rfl, rfl⟩
  all_goals cases h

/-- The loop ends within R150's bound: with that many passes it always has an answer. -/
theorem drain_total (k : Nat) (s : State) (out : List Bytes) (hk : s.rxbuf.length / 2 < k) :
    ∃ t out' st, drain k s out = .ok (t, out', st) := by
  induction k generalizing s out with
  | zero => omega
  | succ k ih =>
    unfold drain
    split
    · rename_i f h; exact absurd h (runPass_ne_error _ _ _ _)
    · exact ⟨_, _, _, rfl⟩
    · rename_i t out' h
      obtain ⟨-, hl, n, key, -, -, hle, h2, rfl, -⟩ := runPass_again _ _ _ _ _ h
      exact ih _ _ (by simp; omega)

/-- More passes than needed change nothing. -/
theorem drain_more (k k' : Nat) (s : State) (out : List Bytes) (r : State × List Bytes × Status) (hk : k ≤ k')
    (h : drain k s out = .ok r) : drain k' s out = .ok r := by
  induction k generalizing k' s out with
  | zero => cases h
  | succ k ih =>
    obtain ⟨k', rfl⟩ : ∃ j, k' = j + 1 := ⟨k' - 1, by omega⟩
    unfold drain at h ⊢
    split <;> simp_all

/-- A pass carries the payloads before it along and reads them nowhere. -/
theorem runPass_out (r : ParseOutcome) (s : State) (out : List Bytes) :
    runPass r s out = match runPass r s [] with
      | .error f => .error f
      | .ok (.done t o st) => .ok (.done t (out ++ o) st)
      | .ok (.again t o) => .ok (.again t (out ++ o)) := by
  cases r with
  | incomplete => simp [runPass]
  | invalid reason => simp [runPass]
  | unsupportedLength => simp [runPass]
  | parsed h n key =>
    simp only [runPass, passParsed]
    split
    · simp
    split
    · simp
    · rename_i h1 h2
      rw [extractFrame_ok _ _ _ _ _ (by simp; omega), extractFrame_ok _ _ _ _ _ (by simp; omega)]
      cases (s.recordParsed n key).params.drainPolicy <;> simp

/-- The loop carries the payloads before it along: its answer is theirs, then its own (R141). -/
theorem drain_out (k : Nat) (s : State) (out : List Bytes) :
    drain k s out = match drain k s [] with
      | .error f => .error f
      | .ok (t, o, st) => .ok (t, out ++ o, st) := by
  induction k generalizing s out with
  | zero => rfl
  | succ k ih =>
    unfold drain
    rw [runPass_out]
    cases hp : runPass (parse s.rxbuf s.role) s [] with
    | error f => rfl
    | ok p =>
      cases p with
      | done t o st => rfl
      | again t o =>
        simp only
        rw [ih t (out ++ o), ih t o]
        cases drain k t [] with
        | error f => rfl
        | ok r => obtain ⟨u, o', st⟩ := r; simp

/-- The loop touches the receiver's registers only (R59). -/
theorem drain_frame (k : Nat) (s t : State) (out out' : List Bytes) (st : Status)
    (h : drain k s out = .ok (t, out', st)) :
    t = { s with rxbuf := t.rxbuf, rxFault := t.rxFault, lastRxLen := t.lastRxLen, lastRxKey := t.lastRxKey } := by
  induction k generalizing s out with
  | zero => cases h
  | succ k ih =>
    unfold drain at h
    split at h
    · cases h
    · rename_i hp; cases h; exact runPass_frame _ _ _ _ _ _ (.inl hp)
    · rename_i u o hp
      have h1 := runPass_frame _ _ u _ _ .ok (.inr hp)
      have h2 := ih _ _ h
      rw [h1] at h2
      exact h2

/-- The loop's bytes: what is left is the end of what was there; nothing is reordered or written (R22). -/
theorem drain_rxbuf (k : Nat) (s t : State) (out out' : List Bytes) (st : Status)
    (h : drain k s out = .ok (t, out', st)) : t.rxbuf <:+ s.rxbuf := by
  induction k generalizing s out with
  | zero => cases h
  | succ k ih =>
    unfold drain at h
    split at h
    · cases h
    · rename_i hp
      cases h
      obtain ⟨-, e⟩ | ⟨_, -, e⟩ | ⟨-, e⟩ | ⟨_, _, _, -, -, e⟩ | ⟨_, _, _, -, -, -, e⟩ | ⟨hl, n, key, -, -, hle, e⟩ :=
        runPass_cases (parse s.rxbuf s.role) s out <;> rw [e] at hp
      case inr.inr.inr.inr.inr =>
        rw [extractFrame_ok _ _ _ _ _ (by simpa using hle)] at hp
        cases hd : (s.recordParsed n key).params.drainPolicy <;> rw [hd] at hp <;> cases hp
        exact List.drop_suffix _ _
      all_goals cases hp; exact List.suffix_refl _
    · rename_i u o hp
      obtain ⟨-, hl, n, key, -, -, -, -, rfl, -⟩ := runPass_again _ _ _ _ _ hp
      exact (ih _ _ h).trans (List.drop_suffix _ _)

/-- SUBMIT of a chunk that fits, with no fault latched: the loop over RXBUF with the chunk behind it, in any number of
passes that give an answer (R140). -/
theorem execSubmit_fits (chunk : Bytes) (s : State) (k : Nat) (r : State × List Bytes × Status)
    (hf : s.rxFault = none) (hc : s.rxbuf.length + chunk.length ≤ s.params.rxBufCap)
    (h : drain k (s.setRxbuf (s.rxbuf ++ chunk)) [] = .ok r) :
    execSubmit chunk s = .next (r.1.respond (.payloads r.2.1) r.2.2) := by
  obtain ⟨u, o, st, hd⟩ := drain_total (drainBound (s.setRxbuf (s.rxbuf ++ chunk))) (s.setRxbuf (s.rxbuf ++ chunk)) []
    (Nat.lt_succ_self _)
  have h1 := drain_more k (k + drainBound (s.setRxbuf (s.rxbuf ++ chunk))) _ _ _ (by omega) h
  have h2 := drain_more _ (k + drainBound (s.setRxbuf (s.rxbuf ++ chunk))) _ _ _ (by omega) hd
  rw [h1] at h2
  cases h2
  simp only [execSubmit, hf, gt_iff_lt, Nat.not_lt.2 hc, if_false, memAppend, hc, if_true, hd]

/-- SUBMIT of a chunk that fits, with no fault latched, has an answer of the loop. -/
theorem execSubmit_fits_total (chunk : Bytes) (s : State) (hf : s.rxFault = none)
    (hc : s.rxbuf.length + chunk.length ≤ s.params.rxBufCap) :
    ∃ k u out st, drain k (s.setRxbuf (s.rxbuf ++ chunk)) [] = .ok (u, out, st) ∧
      execSubmit chunk s = .next (u.respond (.payloads out) st) := by
  obtain ⟨u, out, st, hd⟩ := drain_total _ (s.setRxbuf (s.rxbuf ++ chunk)) [] (Nat.lt_succ_self _)
  exact ⟨_, u, out, st, hd, execSubmit_fits chunk s _ _ hf hc hd⟩

end Sys2Proof.Machine
end

