-- ==== Sys2Proof/Tests/Slice0.lean ====
section
/-! SUPPORT. Tests of the model against the spec: the WellFormed smoke test, the decoding and encoding of words written
out from R61, R72 and R75, single steps against the vectors of spec/95_test_vectors.md, and, for each statement with
hypotheses, a witness that meets them. Expected results are the spec's. -/

namespace Sys2Proof.Machine.Tests

/-! ## Helpers -/

/-- An instance as RESET leaves it (R211). -/
def fresh (role : Role) (cap : Nat) (policy : DrainPolicy) : State := State.resetWith ⟨cap, policy⟩ role

/-- A fresh instance in the non-masking role with room for every test frame. -/
def nm : State := fresh .nonMasking 1024 .all

/-- A fresh instance in the masking role with room for every test frame. -/
def m : State := fresh .masking 1024 .all

/-- The next state of an outcome. -/
def after (o : Host.Outcome State Fault Refusal) : Option State :=
  match o with
  | .next t => some t
  | .fault _ => none
  | .refused _ => none

/-- The response an outcome carries. -/
def answer (o : Host.Outcome State Fault Refusal) : Option Response :=
  match after o with
  | some t => t.response
  | none => none

/-- The instruction a header decoder answered, and the bytes left. -/
def decoded (r : Except DecodeError (Instr × Bytes)) : Option (Instr × Bytes) :=
  match r with
  | .ok x => some x
  | .error _ => none

/-- A state with a command waiting. -/
def waiting (c : Command) (s : State) : State := { s with pending := [c] }

/-- "Hello, World!" (X8). -/
def hello : Bytes := [0x48, 0x65, 0x6C, 0x6C, 0x6F, 0x2C, 0x20, 0x57, 0x6F, 0x72, 0x6C, 0x64, 0x21]

/-- HW, W6's frame (95_test_vectors.md section 2.4). -/
def hw : Bytes :=
  [0x82, 0x8D, 0x11, 0x22, 0x33, 0x44, 0x59, 0x47, 0x5F, 0x28, 0x7E, 0x0E, 0x13, 0x13, 0x7E, 0x50, 0x5F, 0x20, 0x30]

/-! ## WellFormed: an ill-formed term for each check, refused; its neighbour accepted -/

theorem test_wf_reject_opcode_not_binary :
    Instr.wf (.rejectOpcode 0 2 0 0) = false ∧ Instr.wf (.rejectOpcode 0 1 0 0) = true := by decide

theorem test_wf_len_short_nm_at_most_125 :
    Instr.wf (.lenShortNm 0 126 0) = false ∧ Instr.wf (.lenShortNm 0 125 0) = true := by decide

theorem test_wf_len_short_m_at_most_125 :
    Instr.wf (.lenShortM 0 127) = false ∧ Instr.wf (.lenShortM 0 125) = true := by decide

theorem test_wf_role_column :
    Instr.inRole (.lenShortNm 0 1 0) .masking = false ∧ Instr.inRole (.lenShortM 0 1) .nonMasking = false ∧
      Instr.inRole (.rejectMaskNm 0 1) .masking = false ∧ Instr.inRole (.rejectMaskM 0 1) .nonMasking = false := by
  decide

/-! ## Decoding: words written out from R61 (byte 0 = FIN RSV OPCODE, byte 1 = MASK LEN7) and R72 -/

-- byte 0 = 0 101 0010, byte 1 = 1 0000011
theorem test_decode_reject_fin_clear : decoded (decodeHeader .nonMasking [0b01010010, 0b10000011, 0xAA]) =
    some (.rejectFinClear 0b101 2 1 3, [0xAA]) := by decide

-- byte 0 = 1 000 1000 (opcode 8), byte 1 = 0 0000101
theorem test_decode_reject_opcode : decoded (decodeHeader .masking [0b10001000, 0b00000101]) =
    some (.rejectOpcode 0 8 0 5, []) := by decide

-- byte 0 = 1 001 0010, byte 1 = 0 1111111: MASK = 0 in the non-masking role, before LEN7 (P13)
theorem test_decode_reject_mask_nm : decoded (decodeHeader .nonMasking [0b10010010, 0b01111111]) =
    some (.rejectMaskNm 0b001 127, []) := by decide

-- byte 0 = 1 000 0010, byte 1 = 1 0000000: MASK = 1 in the masking role (P9)
theorem test_decode_reject_mask_m : decoded (decodeHeader .masking [0b10000010, 0b10000000]) =
    some (.rejectMaskM 0 0, []) := by decide

-- byte 0 = 1 010 0010, byte 1 = 1 1111111
theorem test_decode_len_ext64_nm : decoded (decodeHeader .nonMasking [0b10100010, 0b11111111, 0x00]) =
    some (.lenExt64Nm 0b010, [0x00]) := by decide

-- byte 0 = 1 000 0010, byte 1 = 0 1111111 (P11)
theorem test_decode_len_ext64_m : decoded (decodeHeader .masking [0b10000010, 0b01111111]) =
    some (.lenExt64M 0, []) := by decide

-- byte 1 = 1 1111110, LEN16 = C3 50 = 50000, key 11 22 33 44 (P19)
theorem test_decode_len_ext16_nm :
    decoded (decodeHeader .nonMasking [0x82, 0b11111110, 0xC3, 0x50, 0x11, 0x22, 0x33, 0x44, 0x55]) =
      some (.lenExt16Nm 0 50000 0x11223344, [0x55]) := by decide

-- byte 1 = 0 1111110, LEN16 = 00 05 (P23)
theorem test_decode_len_ext16_m : decoded (decodeHeader .masking [0x82, 0b01111110, 0x00, 0x05]) =
    some (.lenExt16M 0 5, []) := by decide

-- byte 1 = 1 0001101, key 11 22 33 44 (P15)
theorem test_decode_len_short_nm : decoded (decodeHeader .nonMasking [0x82, 0b10001101, 0x11, 0x22, 0x33, 0x44]) =
    some (.lenShortNm 0 13 0x11223344, []) := by decide

-- byte 0 = 1 111 0010, byte 1 = 0 0000101 (P25)
theorem test_decode_len_short_m : decoded (decodeHeader .masking [0b11110010, 0b00000101]) =
    some (.lenShortM 7 5, []) := by decide

-- the key is one byte short, then LEN16 is (P14, P17, P18, P22): no instruction yet
theorem test_decode_incomplete :
    decodeHeader .nonMasking [0x82, 0x8D, 0x11, 0x22, 0x33] = .error .incomplete ∧
      decodeHeader .nonMasking [0x82, 0xFE, 0xC3] = .error .incomplete ∧
      decodeHeader .nonMasking [0x82, 0xFE, 0xC3, 0x50, 0x11, 0x22, 0x33] = .error .incomplete ∧
      decodeHeader .masking [0x82, 0x7E, 0x00] = .error .incomplete ∧
      decodeHeader .masking [0x82] = .error .incomplete := ⟨rfl, rfl, rfl, rfl, rfl⟩

-- the command codes of R72
theorem test_decode_reset : decodeCommand ⟨0b000, .masking, [], 0⟩ = .reset .masking := by decide

theorem test_decode_submit : decodeCommand ⟨0b001, .masking, [1, 2], 9⟩ = .submit [1, 2] := by decide

theorem test_decode_wrap : decodeCommand ⟨0b010, .masking, [1, 2], 9⟩ = .wrap [1, 2] := by decide

theorem test_decode_mask_apply : decodeCommand ⟨0b011, .masking, [1, 2], 9⟩ = .maskApply [1, 2] 9 := by decide

theorem test_decode_parse_header : decodeCommand ⟨0b100, .masking, [1, 2], 9⟩ = .parseHeader [1, 2] := by decide

theorem test_decode_read_tx_key : decodeCommand ⟨0b101, .masking, [1, 2], 9⟩ = .readTxKey := by decide

theorem test_decode_read_rx_last : decodeCommand ⟨0b110, .masking, [1, 2], 9⟩ = .readRxLast := by decide

theorem test_decode_reserved : decodeCommand ⟨0b111, .masking, [1, 2], 9⟩ = .reserved := by decide

-- the table's numbering: H is the first word, later words follow, each word's more significant byte first
theorem test_decode_table_word :
    decodeTableWord 16 0x82FF = some (.lenExt64Nm 0) ∧
      decodeTableWord 16 0x827E = some (.lenExt16M 0 0) ∧
      decodeTableWord 32 0x0005827E = some (.lenExt16M 0 5) ∧
      decodeTableWord 16 0x82FE = some (.lenExt16Nm 0 0 0) ∧
      decodeTableWord 16 0x0000 = some (.rejectFinClear 0 0 0 0) ∧
      decodeTableWord 8 0b110 = some .readRxLast := by decide

/-! ## Encoding, from R61 and R72 -/

theorem test_encode_headers :
    encode (.lenExt16Nm 0 50000 0x11223344) = .header [0x82, 0xFE, 0xC3, 0x50, 0x11, 0x22, 0x33, 0x44] ∧
      encode (.lenShortNm 0 13 0x11223344) = .header [0x82, 0x8D, 0x11, 0x22, 0x33, 0x44] ∧
      encode (.lenExt16M 0 5) = .header [0x82, 0x7E, 0x00, 0x05] ∧
      encode (.lenShortM 7 5) = .header [0xF2, 0x05] ∧
      encode (.rejectOpcode 0 8 0 5) = .header [0x88, 0x05] ∧
      encode (.rejectFinClear 0b101 2 1 3) = .header [0x52, 0x83] := by decide

theorem test_encode_commands :
    encode (.reset .masking) = .command ⟨0b000, .masking, [], 0⟩ ∧
      encode (.maskApply [0x42, 0x42] 0x01010101) = .command ⟨0b011, .nonMasking, [0x42, 0x42], 0x01010101⟩ := by decide

/-! ## One step of each instruction -/

-- M3: the pad wraps once
theorem test_mask_apply_hello :
    answer (exec (.maskApply [0x48, 0x65, 0x6C, 0x6C, 0x6F] 0x37FA213D) nm) =
      some ⟨.bytes [0x7F, 0x9F, 0x4D, 0x51, 0x58], .ok⟩ := by decide

-- M12: a split keeps the phase; a pad that restarts gives [5B 95]
theorem test_mask_split_phase :
    maskFrom 0x37FA213D 3 [0x6C, 0x6F] = [0x51, 0x58] ∧ maskApply [0x6C, 0x6F] 0x37FA213D = [0x5B, 0x95] := by decide

-- W6, with 0x11223344 as the draw; the key is then in LAST_TX_KEY and out of the script
theorem test_wrap_masked :
    (after (exec (.wrap hello) { m with keyScript := [0x11223344, 9] })).map
        (fun t => (t.response, t.lastTxKey, t.keyScript)) =
      some (some ⟨.frame (some hw), .ok⟩, some 0x11223344, [9]) := by decide

-- W7, W8, W11, W13: bytes 0 to 3 where the length encoding changes and at its end
theorem test_wrap_header_bytes :
    writeHeader .nonMasking 125 = [0x82, 0x7D] ∧ writeHeader .nonMasking 126 = [0x82, 0x7E, 0x00, 0x7E] ∧
      writeHeader .masking 256 = [0x82, 0xFE, 0x01, 0x00] ∧
      writeHeader .masking 65535 = [0x82, 0xFE, 0xFF, 0xFF] := by decide

-- P19, P23, P10: PARSE_HEADER
theorem test_parse_header_extended :
    answer (exec (.parseHeader [0x82, 0xFE, 0xC3, 0x50, 0x11, 0x22, 0x33, 0x44]) nm) =
      some ⟨.outcome (.parsed 8 50000 (some 0x11223344)), .ok⟩ ∧
    answer (exec (.parseHeader [0x82, 0x7E, 0x00, 0x05]) m) = some ⟨.outcome (.parsed 4 5 none), .ok⟩ := by decide

-- P3, P5, P12, P13: the order of the checks
theorem test_parse_header_order :
    parse [0x02] .nonMasking = .incomplete ∧ parse [0x01, 0x80] .nonMasking = .invalid .finClear ∧
      parse [0x81, 0xFF] .nonMasking = .invalid .badOpcode ∧
      parse [0x82, 0x7F] .nonMasking = .invalid .maskMismatch ∧
      parse [0x82, 0xFF] .nonMasking = .unsupportedLength := by decide

-- S1
theorem test_submit_masked_frame :
    (after (exec (.submit hw) nm)).map
        (fun t => (t.response, t.rxbuf, t.phase, t.lastRxLen, t.lastRxKey)) =
      some (some ⟨.payloads [hello], .ok⟩, [], some .waitHeader, some 13, some 0x11223344) := rfl

-- S8: the complete frame comes out, the bad one latches and stays
theorem test_submit_mixed_chunk :
    (after (exec (.submit [0x82, 0x01, 0x41, 0x81, 0x01, 0x42]) m)).map
        (fun t => (t.response, t.rxbuf, t.rxFault, t.lastRxLen)) =
      some (some ⟨.payloads [[0x41]], .framingBadOpcode⟩, [0x81, 0x01, 0x42], some (.framing .badOpcode), some 1) := by
  decide

-- S6: DRAIN_POLICY = ONE leaves the second frame READY
theorem test_submit_drain_one :
    (after (exec (.submit [0x82, 0x01, 0x41, 0x82, 0x02, 0x42, 0x43]) (fresh .masking 1024 .one))).map
        (fun t => (t.response, t.rxbuf, t.phase)) =
      some (some ⟨.payloads [[0x41]], .ok⟩, [0x82, 0x02, 0x42, 0x43], some .ready) := by decide

-- S12 and S14: h + n against RX_BUF_CAP = 10
theorem test_submit_capacity :
    answer (exec (.submit [0x82, 0x7E, 0x00, 0x10]) (fresh .masking 10 .all)) =
      some ⟨.payloads [], .payloadTooLarge⟩ ∧
    answer (exec (.submit ([0x82, 0x08] ++ List.replicate 8 0x30)) (fresh .masking 10 .all)) =
      some ⟨.payloads [List.replicate 8 0x30], .ok⟩ := by decide

-- Q4, Q10: the reads, in FAILED too
theorem test_read_tx_key :
    answer (exec .readTxKey { m with lastTxKey := some 0xA1B2C3D4, rxFault := some .payloadTooLarge }) =
      some ⟨.txKey (some 0xA1B2C3D4), .ok⟩ := by decide

theorem test_read_rx_last :
    answer (exec .readRxLast { m with lastRxLen := some 1, rxFault := some (.framing .badOpcode) }) =
      some ⟨.rxLast (some 1) none, .ok⟩ := by decide

-- Z3, Z5: what RESET drops
theorem test_reset_drops_everything :
    (after (exec (.reset .nonMasking)
        { m with rxbuf := [0x82, 0x8D, 0x11], rxFault := some .payloadTooLarge, lastTxKey := some 1,
                 lastRxLen := some 2, lastRxKey := some 3 })).map
        (fun t => (t.role, t.rxbuf, t.rxFault, t.lastTxKey, t.lastRxLen, t.lastRxKey)) =
      some (.nonMasking, [], none, none, none, none) := rfl

-- Z6
theorem test_reserved : answer (exec .reserved m) = some ⟨.empty, .refused⟩ := by decide

-- S9, S8, S10, S22: the header at the front of RXBUF latches its reason
theorem test_header_reject_fin_clear :
    (after (exec (.rejectFinClear 0 2 1 0) { nm with rxbuf := [0x02, 0x80, 0, 0, 0, 0] })).map
        (fun t => (t.response, t.rxFault, t.rxbuf.length)) =
      some (some ⟨.payloads [], .framingFinClear⟩, some (.framing .finClear), 6) := by decide

theorem test_header_reject_opcode :
    (after (exec (.rejectOpcode 0 1 0 1) { m with rxbuf := [0x81, 0x01, 0x42] })).map
        (fun t => (t.response, t.rxFault, t.rxbuf)) =
      some (some ⟨.payloads [], .framingBadOpcode⟩, some (.framing .badOpcode), [0x81, 0x01, 0x42]) := by decide

theorem test_header_reject_mask :
    (after (exec (.rejectMaskNm 0 1) { nm with rxbuf := [0x82, 0x01, 0x41] })).map (fun t => (t.response, t.rxFault)) =
      some (some ⟨.payloads [], .framingMaskMismatch⟩, some (.framing .maskMismatch)) ∧
    (after (exec (.rejectMaskM 0 13) { m with rxbuf := hw })).map (fun t => (t.response, t.rxFault)) =
      some (some ⟨.payloads [], .framingMaskMismatch⟩, some (.framing .maskMismatch)) := by decide

-- S11, S24: reported, not latched
theorem test_header_ext64 :
    (after (exec (.lenExt64Nm 0) { nm with rxbuf := [0x82, 0xFF] })).map (fun t => (t.response, t.rxFault, t.rxbuf)) =
      some (some ⟨.payloads [], .unsupportedLengthScheme⟩, none, [0x82, 0xFF]) ∧
    (after (exec (.lenExt64M 0) { m with rxbuf := [0x82, 0x7F, 0x00] })).map (fun t => (t.response, t.rxFault)) =
      some (some ⟨.payloads [], .unsupportedLengthScheme⟩, none) := by decide

-- S3's last two SUBMITs: the header waits for its payload, then gives it
theorem test_header_len_short_nm :
    answer (exec (.lenShortNm 0 13 0x11223344) { nm with rxbuf := hw }) = some ⟨.payloads [hello], .ok⟩ ∧
    (after (exec (.lenShortNm 0 13 0x11223344) { nm with rxbuf := hw.take 7 })).map
        (fun t => (t.response, t.rxbuf.length, t.lastRxLen, t.lastRxKey)) =
      some (some ⟨.payloads [], .ok⟩, 7, some 13, some 0x11223344) := by decide

-- S5's second frame, S21
theorem test_header_len_short_m :
    (after (exec (.lenShortM 0 2) { m with rxbuf := [0x82, 0x02, 0x42, 0x43, 0x82] })).map
        (fun t => (t.response, t.rxbuf, t.lastRxLen, t.lastRxKey)) =
      some (some ⟨.payloads [[0x42, 0x43]], .ok⟩, [0x82], some 2, none) := by decide

theorem test_header_len_ext16_m :
    answer (exec (.lenExt16M 0 5) { m with rxbuf := [0x82, 0x7E, 0x00, 0x05, 0x41, 0x42, 0x43, 0x44, 0x45] }) =
      some ⟨.payloads [[0x41, 0x42, 0x43, 0x44, 0x45]], .ok⟩ := by decide

-- Program D's frame with n = 2: FE, LEN16, key DE AD BE EF, then 00 and 01 masked
theorem test_header_len_ext16_nm :
    answer (exec (.lenExt16Nm 0 2 0xDEADBEEF)
        { nm with rxbuf := [0x82, 0xFE, 0x00, 0x02, 0xDE, 0xAD, 0xBE, 0xEF, 0xDE, 0xAC] }) =
      some ⟨.payloads [[0x00, 0x01]], .ok⟩ := by decide

/-! ## The step -/

-- Program C, step 9: the next command is taken, decoded and run
theorem test_step_runs_next_command :
    (after (step (waiting ⟨0b111, .masking, [], 0⟩ m))).map (fun t => (t.pending, t.response)) =
      some ([], some ⟨.empty, .refused⟩) := by decide

-- a table word placed for the first step after reset: a command, a rejected header, a header that is met whole
theorem test_with_fetch_word :
    answer (step (State.reset.withFetchWord 8 0b101)) = some ⟨.txKey none, .ok⟩ ∧
      answer (step (State.reset.withFetchWord 16 0x0000)) = some ⟨.payloads [], .framingFinClear⟩ ∧
      answer (step (State.reset.withFetchWord 16 0x82FE)) = some ⟨.payloads [[]], .ok⟩ := by decide

/-! ## Witnesses: for each statement with hypotheses, a state and operands that meet them, at the ends of their ranges -/

theorem witness_InstanceStartsAsResetLeavesIt : nm.params = ⟨1024, .all⟩ ∧ m.params = ⟨1024, .all⟩ := ⟨rfl, rfl⟩

theorem witness_MaskOutputIsLocal :
    (0 % 4 = 4 % 4 ∧ ([7] : Bytes)[0]? = ([0, 0, 0, 0, 7] : Bytes)[4]?) ∧
      (1 % 4 = 5 % 4 ∧ ([7] : Bytes)[1]? = ([0, 0, 0, 0, 7] : Bytes)[5]?) := by decide

theorem witness_WrapUnmaskedFrame :
    nm.role = .nonMasking ∧ ([] : Bytes).length < 65536 ∧ (List.replicate 125 (0 : Byte)).length < 126 ∧
      126 ≤ (List.replicate 126 (0 : Byte)).length ∧ (List.replicate 65535 (0 : Byte)).length < 65536 := by
  simp only [List.length_replicate]; decide

theorem witness_WrapMaskedFrame :
    m.role = .masking ∧ m.keyScript = [] ∧ ({ m with keyScript := [5] } : State).role = .masking ∧
      ([] : Bytes).length < 65536 ∧ (List.replicate 125 (0 : Byte)).length < 126 ∧
      126 ≤ (List.replicate 126 (0 : Byte)).length ∧ (List.replicate 65535 (0 : Byte)).length < 65536 := by
  simp only [List.length_replicate]; decide

theorem witness_WrapTooLongWritesNothing : 65536 ≤ (List.replicate 65536 (0 : Byte)).length := by
  simp only [List.length_replicate]; decide

theorem witness_WrapFrameSizes :
    (List.replicate 125 (0 : Byte)).length < 126 ∧ 126 ≤ (List.replicate 126 (0 : Byte)).length ∧
      (List.replicate 65535 (0 : Byte)).length < 65536 := by
  simp only [List.length_replicate]; decide

theorem witness_WrapRoleDecidesMaskBitAndKey :
    m.role = .masking ∧ nm.role = .nonMasking ∧ ([] : Bytes).length < 65536 ∧
      (List.replicate 65535 (0 : Byte)).length < 65536 := by
  simp only [List.length_replicate]; decide

-- the same draw, from scripts and counters that differ, and a free draw
theorem witness_WrapIgnoresTheReceiver :
    (({ m with keyScript := [7] } : State).role =
        ({ m with keyScript := [7, 8], keyDraws := 3, rxbuf := [1], rxFault := some .payloadTooLarge } : State).role ∧
      ({ m with keyScript := [7] } : State).nextKey =
        ({ m with keyScript := [7, 8], keyDraws := 3, rxbuf := [1], rxFault := some .payloadTooLarge } : State).nextKey) ∧
    m.nextKey = ({ m with rxbuf := [1], rxFault := some .payloadTooLarge } : State).nextKey ∧ hello.length < 65536 :=
  ⟨⟨rfl, rfl⟩, rfl, by decide⟩

theorem witness_SubmitIgnoresTheWriter :
    m.role = ({ m with lastTxKey := some 1, keyScript := [2], keyDraws := 3 } : State).role ∧
      m.rxbuf = ({ m with lastTxKey := some 1, keyScript := [2], keyDraws := 3 } : State).rxbuf ∧
      m.rxFault = ({ m with lastTxKey := some 1, keyScript := [2], keyDraws := 3 } : State).rxFault ∧
      m.lastRxLen = ({ m with lastTxKey := some 1, keyScript := [2], keyDraws := 3 } : State).lastRxLen ∧
      m.lastRxKey = ({ m with lastTxKey := some 1, keyScript := [2], keyDraws := 3 } : State).lastRxKey ∧
      m.params = ({ m with lastTxKey := some 1, keyScript := [2], keyDraws := 3 } : State).params := by decide

-- the frame of an empty payload has 6 bytes in the masking role: RX_BUF_CAP = 6 fits it exactly, in each role
theorem witness_WrapThenSubmitGivesThePayload :
    answer (exec (.wrap []) { m with keyScript := [0x11223344] }) =
      some ⟨.frame (some [0x82, 0x80, 0x11, 0x22, 0x33, 0x44]), .ok⟩ ∧
    (fresh .nonMasking 6 .one).rxFault = none ∧ (fresh .nonMasking 6 .one).rxbuf = [] ∧
    ([0x82, 0x80, 0x11, 0x22, 0x33, 0x44] : Bytes).length ≤ (fresh .nonMasking 6 .one).params.rxBufCap ∧
    (fresh .nonMasking 6 .one).role ≠ m.role ∧ (fresh .masking 6 .all).role = m.role := by decide

theorem witness_ParseVerdictsOfTheFirstTwoBytes :
    (0x7F#8).getLsbD 7 = false ∧
    ((0x81#8).getLsbD 7 = true ∧ (0x81#8).toNat % 16 ≠ 2) ∧ ((0x83#8).getLsbD 7 = true ∧ (0x83#8).toNat % 16 ≠ 2) ∧
    ((0x82#8).getLsbD 7 = true ∧ (0x82#8).toNat % 16 = 2 ∧ (0x7F#8).getLsbD 7 ≠ decide (Role.nonMasking = .nonMasking)) ∧
    (0x80#8).getLsbD 7 ≠ decide (Role.masking = .nonMasking) ∧
    ((0xFF#8).getLsbD 7 = decide (Role.nonMasking = .nonMasking) ∧ (0xFF#8).toNat % 128 = 127) ∧
    ((0x7F#8).getLsbD 7 = decide (Role.masking = .nonMasking) ∧ (0x7F#8).toNat % 128 = 127) := by decide

theorem witness_ParseReadsLengthAndKey :
    ((0x82#8).getLsbD 7 = true ∧ (0x82#8).toNat % 16 = 2) ∧
    ((0xFE#8).getLsbD 7 = true ∧ (0xFE#8).toNat % 128 = 126) ∧
    ((0xFD#8).getLsbD 7 = true ∧ (0xFD#8).toNat % 128 ≤ 125) ∧ ((0x80#8).getLsbD 7 = true ∧ (0x80#8).toNat % 128 ≤ 125) ∧
    ((0x7E#8).getLsbD 7 = false ∧ (0x7E#8).toNat % 128 = 126) ∧
    ((0x7D#8).getLsbD 7 = false ∧ (0x7D#8).toNat % 128 ≤ 125) ∧ ((0x00#8).getLsbD 7 = false ∧ (0x00#8).toNat % 128 ≤ 125) := by
  decide

theorem witness_ParseIgnoresRsv :
    (0x82#8).getLsbD 7 = (0xF2#8).getLsbD 7 ∧ (0x82#8).toNat % 16 = (0xF2#8).toNat % 16 := by decide

theorem witness_ParseReadsOnlyTheHeader :
    ([0x82, 0xFE, 0xC3, 0x50, 0x11, 0x22, 0x33, 0x44] : Bytes).take 8 = ([0x82, 0xFE, 0xC3, 0x50, 0x11, 0x22, 0x33, 0x44, 9] : Bytes).take 8 ∧
    parse [0x82, 0xFE, 0xC3, 0x50, 0x11, 0x22, 0x33, 0x44] .nonMasking = .parsed 8 50000 (some 0x11223344) ∧
    parse [0x82, 0x00] .masking = .parsed 2 0 none := by decide

theorem witness_ParseVerdictIsStable :
    parse [0x82, 0x00] .masking ≠ .incomplete ∧ parse [0x02, 0x00] .masking ≠ .incomplete ∧
      parse [0x82, 0xFE, 0xC3, 0x50, 0x11, 0x22, 0x33] .nonMasking = .incomplete := by decide

theorem witness_IncompleteIsBounded :
    parse [0x82, 0xFE, 0xC3, 0x50, 0x11, 0x22, 0x33] .nonMasking = .incomplete ∧
      parse [0x82, 0x7E] .masking = .incomplete ∧ parse [] .masking = .incomplete := by decide

-- every class of the table is met
theorem witness_HeaderClassesAreTheParser :
    classify .masking (headerWord 0x7F 0xFF) = some .rejectFinClear ∧
    classify .masking (headerWord 0x8F 0xFF) = some .rejectOpcode ∧
    classify .nonMasking (headerWord 0x82 0x7F) = some .rejectMaskNm ∧
    classify .masking (headerWord 0x82 0x80) = some .rejectMaskM ∧
    classify .nonMasking (headerWord 0x82 0xFF) = some .lenExt64Nm ∧
    classify .masking (headerWord 0x82 0x7F) = some .lenExt64M ∧
    classify .nonMasking (headerWord 0x82 0xFE) = some .lenExt16Nm ∧
    classify .masking (headerWord 0x82 0x7E) = some .lenExt16M ∧
    classify .nonMasking (headerWord 0x82 0xFD) = some .lenShortNm ∧
    classify .masking (headerWord 0x82 0x7D) = some .lenShortM := by decide

theorem witness_DecodeEncodeRoundTrip :
    (Instr.wf (.rejectFinClear 7 15 1 127) = true ∧ Instr.inRole (.rejectFinClear 7 15 1 127) .masking = true) ∧
    (Instr.wf (.rejectOpcode 7 3 1 127) = true ∧ Instr.inRole (.rejectOpcode 7 3 1 127) .nonMasking = true) ∧
    (Instr.wf (.rejectMaskNm 7 127) = true ∧ Instr.inRole (.rejectMaskNm 7 127) .nonMasking = true) ∧
    (Instr.wf (.rejectMaskM 7 127) = true ∧ Instr.inRole (.rejectMaskM 7 127) .masking = true) ∧
    (Instr.wf (.lenExt64Nm 7) = true ∧ Instr.inRole (.lenExt64Nm 7) .nonMasking = true) ∧
    (Instr.wf (.lenExt64M 7) = true ∧ Instr.inRole (.lenExt64M 7) .masking = true) ∧
    (Instr.wf (.lenExt16Nm 0 65535 0) = true ∧ Instr.inRole (.lenExt16Nm 0 65535 0) .nonMasking = true) ∧
    (Instr.wf (.lenExt16M 0 0) = true ∧ Instr.inRole (.lenExt16M 0 0) .masking = true) ∧
    (Instr.wf (.lenShortNm 0 125 9) = true ∧ Instr.inRole (.lenShortNm 0 125 9) .nonMasking = true) ∧
    (Instr.wf (.lenShortM 0 0) = true ∧ Instr.inRole (.lenShortM 0 0) .masking = true) ∧
    (Instr.wf (.maskApply [1] 2) = true ∧ Instr.inRole (.maskApply [1] 2) .masking = true) := by decide

theorem witness_DecodedHeaderIsItsEncoding :
    decodeHeader .masking [0x82, 0x7E, 0xFF, 0xFF, 0x01] = .ok (.lenExt16M 0 65535, [0x01]) := rfl

theorem witness_RejectedHeadersLatchTheirReason : nm.rxFault = none ∧ m.rxFault = none := by decide

theorem witness_Ext64HeadersAreReportedOnly : nm.rxFault = none ∧ m.rxFault = none := by decide

-- the three cases of the effect, where they meet: h + n = 2 + 8 against a capacity of 9 and 10, and 9 and 10 bytes
theorem witness_ParsedHeadersLatchWaitOrExtract :
    (fresh .masking 9 .all).rxFault = none ∧ (fresh .masking 9 .all).params.rxBufCap < 2 + (8#7).toNat ∧
    (2 + (8#7).toNat ≤ (fresh .masking 10 .all).params.rxBufCap ∧
      ({ fresh .masking 10 .all with rxbuf := [0x82, 8, 1, 2, 3, 4, 5, 6, 7] } : State).rxbuf.length < 2 + (8#7).toNat) ∧
    2 + (8#7).toNat ≤ ({ fresh .masking 10 .all with rxbuf := [0x82, 8, 1, 2, 3, 4, 5, 6, 7, 8] } : State).rxbuf.length := by
  decide

theorem witness_LatchedReceiverChangesNothing :
    ({ m with rxFault := some .payloadTooLarge } : State).rxFault = some .payloadTooLarge ∧
      ({ m with rxFault := some (.framing .finClear) } : State).rxFault = some (.framing .finClear) ∧
      Instr.isHeader (.lenShortM 0 1) = true ∧ ∃ chunk, Instr.submit [1] = .submit chunk :=
  ⟨rfl, rfl, rfl, [1], rfl⟩

-- S6 and its ALL form: three bytes exactly make the frame; and a header that yields no payload
theorem witness_SubmitRunsTheHeaderAtTheFront :
    (fresh .masking 3 .all).rxFault = none ∧
    (fresh .masking 3 .all).rxbuf.length + ([0x82, 0x01, 0x41] : Bytes).length ≤ (fresh .masking 3 .all).params.rxBufCap ∧
    decodeHeader .masking ([] ++ [0x82, 0x01, 0x41]) = .ok (.lenShortM 0 1, [0x41]) ∧
    (fresh .masking 3 .all).params.drainPolicy = .all ∧ (fresh .masking 3 .one).params.drainPolicy = .one ∧
    answer (exec (.lenShortM 0 1) { fresh .masking 3 .all with rxbuf := [0x82, 0x01, 0x41] }) =
      some ⟨.payloads [[0x41]], .ok⟩ ∧
    decodeHeader .masking ([] ++ [0x82, 0x02, 0x41]) = .ok (.lenShortM 0 2, [0x41]) :=
  ⟨rfl, by decide, rfl, rfl, rfl, rfl, rfl⟩

theorem witness_SubmitOverflowLatches :
    (fresh .masking 10 .all).rxFault = none ∧
      (fresh .masking 10 .all).params.rxBufCap < (fresh .masking 10 .all).rxbuf.length + (List.replicate 11 (0 : Byte)).length := by
  decide

theorem witness_SubmitInvalidFrontLatches :
    (fresh .nonMasking 2 .all).rxFault = none ∧
    (fresh .nonMasking 2 .all).rxbuf.length + ([0x02, 0x80] : Bytes).length ≤ (fresh .nonMasking 2 .all).params.rxBufCap ∧
    parse ([] ++ [0x02, 0x80]) .nonMasking = .invalid .finClear ∧
    parse ([] ++ [0x81, 0x80]) .nonMasking = .invalid .badOpcode ∧
    parse ([] ++ [0x82, 0x00]) .nonMasking = .invalid .maskMismatch := by decide

-- RX_BUF_CAP = 3: two bytes block; one more fits exactly, two more overflow
theorem witness_SubmitExt64BlocksUntilOverflow :
    (fresh .nonMasking 3 .all).rxFault = none ∧
    (fresh .nonMasking 3 .all).rxbuf.length + ([0x82, 0xFF] : Bytes).length ≤ (fresh .nonMasking 3 .all).params.rxBufCap ∧
    parse ([] ++ [0x82, 0xFF]) .nonMasking = .unsupportedLength ∧
    ([0x82, 0xFF] : Bytes).length + ([0x00] : Bytes).length ≤ (fresh .nonMasking 3 .all).params.rxBufCap ∧
    (fresh .nonMasking 3 .all).params.rxBufCap < ([0x82, 0xFF] : Bytes).length + ([0x00, 0x00] : Bytes).length := by
  decide

-- h + n = 4 = RX_BUF_CAP, three bytes present
theorem witness_SubmitWaitsForMoreBytes :
    (fresh .masking 4 .all).rxFault = none ∧
    (fresh .masking 4 .all).rxbuf.length + ([0x82, 0x02, 0x41] : Bytes).length ≤ (fresh .masking 4 .all).params.rxBufCap ∧
    parse ([] ++ [0x82]) .masking = .incomplete ∧
    parse ([] ++ [0x82, 0x02, 0x41]) .masking = .parsed 2 2 none ∧
    2 + (2 : Len64).toNat ≤ (fresh .masking 4 .all).params.rxBufCap ∧
    (([] : Bytes) ++ [0x82, 0x02, 0x41]).length < 2 + (2 : Len64).toNat := by decide

-- S12 with RX_BUF_CAP one byte short of h + n = 4 + 16
theorem witness_SubmitDeclaredTooLargeLatches :
    (fresh .masking 19 .all).rxFault = none ∧
    (fresh .masking 19 .all).rxbuf.length + ([0x82, 0x7E, 0x00, 0x10] : Bytes).length ≤ (fresh .masking 19 .all).params.rxBufCap ∧
    parse ([] ++ [0x82, 0x7E, 0x00, 0x10]) .masking = .parsed 4 16 none ∧
    (fresh .masking 19 .all).params.rxBufCap < 4 + (16 : Len64).toNat := by decide

-- S25's shape: the front of the buffer is the header, the chunk its last byte
theorem witness_SubmitExtractsThenGoesOn :
    ({ fresh .masking 3 .all with rxbuf := [0x82, 0x01] } : State).rxFault = none ∧
    ([0x82, 0x01] : Bytes).length + ([0x41] : Bytes).length ≤ (fresh .masking 3 .all).params.rxBufCap ∧
    parse ([0x82, 0x01] ++ [0x41]) .masking = .parsed 2 1 none ∧
    2 + (1 : Len64).toNat ≤ (([0x82, 0x01] : Bytes) ++ [0x41]).length ∧
    (fresh .masking 3 .all).params.drainPolicy = .all ∧ (fresh .masking 3 .one).params.drainPolicy = .one := by decide

theorem witness_BufferIsAppendedAndConsumedOnly :
    (∃ t, exec (.submit hw) nm = .next t) ∧
    (∃ t, exec (.submit [0x82]) { m with rxFault := some .payloadTooLarge } = .next t) ∧
    (∃ t, exec (.submit (List.replicate 11 0)) (fresh .masking 10 .all) = .next t) ∧
    (∃ t, exec (.lenShortM 0 1) { m with rxbuf := [0x82, 0x01, 0x41, 0x82] } = .next t) ∧
    (∃ t, exec (.wrap [1]) m = .next t) :=
  ⟨⟨_, rfl⟩, ⟨_, rfl⟩, ⟨_, rfl⟩, ⟨_, rfl⟩, ⟨_, rfl⟩⟩

-- every PHASE that has a clause of its own, with a chunk that fits exactly
theorem witness_StatusTellsThePhase :
    (fresh .nonMasking 3 .all).params.drainPolicy = .all ∧
    ({ fresh .nonMasking 3 .all with rxFault := some .payloadTooLarge } : State).phase = some .failed ∧
    ({ fresh .nonMasking 3 .all with rxbuf := [0x82, 0xFF] } : State).phase = some .blockedLength ∧
    ([0x82, 0xFF] : Bytes).length + ([0x00] : Bytes).length ≤ (fresh .nonMasking 3 .all).params.rxBufCap := by decide

/-- A receiver that holds a parsed header and waits for its payload (S4). -/
def waitingPayload : State :=
  { nm with rxbuf := [0x82, 0x8D, 0x11, 0x22, 0x33, 0x44], lastRxLen := some 13, lastRxKey := some 0x11223344 }

/-- A receiver blocked by LEN7 = 127 (S11). -/
def blocked : State := { nm with rxbuf := [0x82, 0xFF] }

theorem waitingPayload_parse : parse waitingPayload.rxbuf waitingPayload.role = .parsed 6 13 (some 0x11223344) := rfl

theorem waitingPayload_inv : waitingPayload.Inv where
  bufferFits := by decide
  lengthInRange := by intro n h; injection h with h; subst h; decide
  framed := by intro _ _ reason; rw [waitingPayload_parse]; exact nofun
  drained := by intro _; decide
  observed := by
    intro _ _ h n key hp
    rw [waitingPayload_parse] at hp
    injection hp with h1 h2 h3
    subst h1 h2 h3
    exact ⟨rfl, rfl, by decide⟩
  roleKeys := ⟨nofun, fun _ => ⟨rfl, rfl⟩⟩

theorem blocked_parse : parse blocked.rxbuf blocked.role = .unsupportedLength := rfl

theorem blocked_inv : blocked.Inv where
  bufferFits := by decide
  lengthInRange := by intro n h; exact nomatch h
  framed := by intro _ _ reason; rw [blocked_parse]; exact nofun
  drained := by intro _; decide
  observed := by intro _ _ h n key hp; rw [blocked_parse] at hp; exact nomatch hp
  roleKeys := ⟨nofun, fun _ => ⟨rfl, rfl⟩⟩

theorem witness_EmptySubmitChangesNothing :
    (waitingPayload.Inv ∧ waitingPayload.params.drainPolicy = .all ∧ waitingPayload.rxFault = none ∧
      waitingPayload.phase = some .waitPayload) ∧
    (blocked.Inv ∧ blocked.params.drainPolicy = .all ∧ blocked.rxFault = none ∧ blocked.phase = some .blockedLength) :=
  ⟨⟨waitingPayload_inv, rfl, rfl, rfl⟩, ⟨blocked_inv, rfl, rfl, rfl⟩⟩

/-- The two frames of S5, each with its payload. -/
def twoFrames : List (Bytes × Bytes) := [([0x82, 0x01, 0x41], [0x41]), ([0x82, 0x02, 0x42, 0x43], [0x42, 0x43])]

theorem twoFrames_carry : ∀ f ∈ twoFrames, carries .masking f.1 f.2 := by
  intro f hf
  rcases List.mem_cons.1 hf with rfl | hf
  · exact ⟨2, 1, none, rfl, rfl, rfl⟩
  · rcases List.mem_cons.1 hf with rfl | hf
    · exact ⟨2, 2, none, rfl, rfl, rfl⟩
    · exact nomatch hf

theorem hw_carries_hello : carries .nonMasking hw hello := ⟨6, 13, some 0x11223344, rfl, rfl, rfl⟩

-- RX_BUF_CAP is exactly the stream; the chunks cut inside a header, are empty, and end with the stream
theorem witness_ReassemblyIgnoresTheCuts :
    (fresh .masking 7 .all).params.drainPolicy = .all ∧ (fresh .masking 7 .all).rxFault = none ∧
    (fresh .masking 7 .all).rxbuf = [] ∧ (∀ f ∈ twoFrames, carries (fresh .masking 7 .all).role f.1 f.2) ∧
    (twoFrames.map Prod.fst).flatten.length ≤ (fresh .masking 7 .all).params.rxBufCap ∧
    ([[0x82], [], [0x01, 0x41, 0x82], [0x02, 0x42, 0x43]] : List Bytes).flatten <+: (twoFrames.map Prod.fst).flatten :=
  ⟨rfl, rfl, rfl, twoFrames_carry, by decide, by decide⟩

-- all of HW but its last byte, under a capacity of 0 and ONE too
theorem witness_NoPayloadBeforeTheLastByte :
    (fresh .nonMasking 0 .one).rxFault = none ∧ (fresh .nonMasking 0 .one).rxbuf = [] ∧ nm.rxFault = none ∧ nm.rxbuf = [] ∧
    carries (fresh .nonMasking 0 .one).role hw hello ∧
    ([hw.take 5, hw.drop 5 |>.take 13] : List Bytes).flatten <+: hw ∧
    ([hw.take 5, hw.drop 5 |>.take 13] : List Bytes).flatten ≠ hw :=
  ⟨rfl, rfl, rfl, rfl, hw_carries_hello, by decide, by decide⟩

-- MAX_CHUNK = 3 and RX_BUF_CAP exactly 65542 + 3
theorem witness_SizedBufferNeverOverflows :
    (⟨65545, .all⟩ : Params).drainPolicy = .all ∧ 65542 + 3 ≤ (⟨65545, .all⟩ : Params).rxBufCap ∧
    (∀ f ∈ twoFrames, carries .masking f.1 f.2) ∧
    (∀ c ∈ ([[0x82, 0x01, 0x41], [0x82, 0x02]] : List Bytes), c.length ≤ 3) ∧
    ([[0x82, 0x01, 0x41], [0x82, 0x02]] : List Bytes).flatten <+: (twoFrames.map Prod.fst).flatten :=
  ⟨rfl, by decide, twoFrames_carry, by decide, by decide⟩

-- the queue of a command that is the encoding of an instruction, and an empty queue
theorem witness_StepRunsTheNextCommand :
    encode (.maskApply [0x42] 7) = .command ⟨0b011, .nonMasking, [0x42], 7⟩ ∧
      (waiting ⟨0b011, .nonMasking, [0x42], 7⟩ m).pending = [⟨0b011, .nonMasking, [0x42], 7⟩] ∧ m.pending = [] := by decide

theorem witness_RoleChangesAtResetOnly :
    (∃ t, exec (.reset .masking) nm = .next t) ∧ ∃ t, exec .reserved nm = .next t := ⟨⟨_, rfl⟩, ⟨_, rfl⟩⟩

theorem witness_FaultKeepsItsFirstCode :
    (({ m with rxFault := some .payloadTooLarge } : State).rxFault = some .payloadTooLarge ∧
      ∃ t, exec (.submit [0x02, 0x00]) { m with rxFault := some .payloadTooLarge } = .next t) ∧
    (m.rxFault = none ∧ ∃ t, exec (.submit [0x02, 0x00]) m = .next t ∧ t.rxFault ≠ none) ∧
    (m.rxFault = none ∧ ∃ t, exec (.rejectOpcode 0 1 0 0) m = .next t ∧ t.rxFault ≠ none) :=
  ⟨⟨rfl, _, rfl⟩, ⟨rfl, _, rfl, by decide⟩, ⟨rfl, _, rfl, by decide⟩⟩

theorem witness_CommandsWriteOnlyTheirRegisters :
    (∃ t, exec (.reset .masking) nm = .next t) ∧ (∃ t, exec (.wrap [1]) m = .next t) ∧
    (∃ t, exec (.submit hw) nm = .next t) ∧ (∃ t, exec (.maskApply [1] 2) m = .next t) ∧
    (∃ t, exec (.parseHeader [1]) m = .next t) ∧ (∃ t, exec .readTxKey m = .next t) ∧
    (∃ t, exec .readRxLast m = .next t) ∧ (∃ t, exec .reserved m = .next t) ∧
    ∃ t, exec (.lenExt64M 0) m = .next t :=
  ⟨⟨_, rfl⟩, ⟨_, rfl⟩, ⟨_, rfl⟩, ⟨_, rfl⟩, ⟨_, rfl⟩, ⟨_, rfl⟩, ⟨_, rfl⟩, ⟨_, rfl⟩, ⟨_, rfl⟩⟩

-- an invariant state whose next command completes the buffered frame's first payload byte
theorem witness_StepKeepsInv :
    waitingPayload.Inv ∧ (∃ t, step waitingPayload = .next t) ∧
      ∃ t, step (waiting ⟨0b001, .masking, [0x59], 0⟩ waitingPayload) = .next t := ⟨waitingPayload_inv, ⟨_, rfl⟩, ⟨_, rfl⟩⟩

-- the hypotheses alone; the statement itself is expected to fail (log 12)
theorem witness_NoFaultMeansFrontNotInvalid :
    ∃ u ps statuses, submitAll [[0x82, 0x01, 0x41]] (State.resetWith ⟨100, .one⟩ .masking) = some (u, ps, statuses) ∧
      u.rxFault = none := ⟨_, _, _, rfl, rfl⟩

end Sys2Proof.Machine.Tests
end

/-! ## Completion: every instruction and every step ends in a next state (R10, R41, R150, R186) -/

namespace Sys2Proof.Machine

/-- A header met at the front of RXBUF completes: latched, it gets R142's answer; otherwise its one pass stays within
the conditions of R41. -/
theorem receiveHeader_completes (r : ParseOutcome) (s : State) : ∃ t : State, receiveHeader r s = .next t := by
  unfold receiveHeader
  cases s.rxFault with
  | some c => exact ⟨_, rfl⟩
  | none =>
    cases hp : runPass r s [] with
    | error f => exact absurd hp (runPass_ne_error r s [] f)
    | ok p =>
      cases p with
      | done t out st => exact ⟨_, rfl⟩
      | again t out => exact ⟨_, rfl⟩

/-- SUBMIT while RX_FAULT is latched (R142). -/
theorem execSubmit_latched (chunk : Bytes) (s : State) (c : RxFault) (hf : s.rxFault = some c) :
    execSubmit chunk s = .next (latchedAnswer c s) := by
  simp only [execSubmit, hf]

/-- SUBMIT of a chunk that does not fit, with no fault latched (R149). -/
theorem execSubmit_overflow (chunk : Bytes) (s : State) (hf : s.rxFault = none)
    (hc : s.params.rxBufCap < s.rxbuf.length + chunk.length) :
    execSubmit chunk s = .next ((s.latch .payloadTooLarge).respond (.payloads []) .payloadTooLarge) := by
  simp only [execSubmit, hf, gt_iff_lt, hc, if_true]

/-- SUBMIT completes, whether it finds a latched fault, a chunk that does not fit, or a loop to run. -/
theorem execSubmit_completes (chunk : Bytes) (s : State) : ∃ t : State, execSubmit chunk s = .next t := by
  cases hf : s.rxFault with
  | some c => exact ⟨_, execSubmit_latched chunk s c hf⟩
  | none =>
    by_cases hc : s.rxbuf.length + chunk.length ≤ s.params.rxBufCap
    · obtain ⟨_, _, _, _, -, he⟩ := execSubmit_fits_total chunk s hf hc
      exact ⟨_, he⟩
    · exact ⟨_, execSubmit_overflow chunk s hf (Nat.lt_of_not_le hc)⟩

/-- WRAP completes: too long, masked or unmasked (R100, R101). -/
theorem execWrap_completes (payload : Bytes) (s : State) : ∃ t : State, execWrap payload s = .next t := by
  unfold execWrap
  split
  · exact ⟨_, rfl⟩
  · cases s.role with
    | masking => exact ⟨_, rfl⟩
    | nonMasking => exact ⟨_, rfl⟩

/-- A header class is received with an outcome of its own, the same from every state (R75, log 8). -/
theorem exec_header (i : Instr) (hi : i.isHeader = true) : ∃ r : ParseOutcome, ∀ s, exec i s = receiveHeader r s :=
  match i, hi with
  | .rejectFinClear .., _ => ⟨.invalid .finClear, fun _ => rfl⟩
  | .rejectOpcode .., _ => ⟨.invalid .badOpcode, fun _ => rfl⟩
  | .rejectMaskNm .., _ | .rejectMaskM .., _ => ⟨.invalid .maskMismatch, fun _ => rfl⟩
  | .lenExt64Nm _, _ | .lenExt64M _, _ => ⟨.unsupportedLength, fun _ => rfl⟩
  | .lenExt16Nm _ len16 key, _ => ⟨.parsed 8 (len16.setWidth 64) (some key), fun _ => rfl⟩
  | .lenExt16M _ len16, _ => ⟨.parsed 4 (len16.setWidth 64) none, fun _ => rfl⟩
  | .lenShortNm _ len7 key, _ => ⟨.parsed 6 (len7.setWidth 64) (some key), fun _ => rfl⟩
  | .lenShortM _ len7, _ => ⟨.parsed 2 (len7.setWidth 64) none, fun _ => rfl⟩

/-- A header class completes, by its pass. -/
theorem exec_header_completes (i : Instr) (s : State) (hi : i.isHeader = true) : ∃ t : State, exec i s = .next t := by
  obtain ⟨r, hr⟩ := exec_header i hi
  rw [hr]
  exact receiveHeader_completes r s

/-- Every instruction completes: the header classes by their pass, SUBMIT and WRAP by their checks, and the other
commands at once. -/
theorem exec_completes (i : Instr) (s : State) : ∃ t : State, exec i s = .next t :=
  match i with
  | .rejectFinClear .. | .rejectOpcode .. | .rejectMaskNm .. | .rejectMaskM .. | .lenExt64Nm _ | .lenExt64M _
  | .lenExt16Nm .. | .lenExt16M .. | .lenShortNm .. | .lenShortM .. => exec_header_completes _ s rfl
  | .submit chunk => execSubmit_completes chunk s
  | .wrap payload => execWrap_completes payload s
  | .reset _ | .maskApply .. | .parseHeader _ | .readTxKey | .readRxLast | .reserved => ⟨_, rfl⟩

/-! ## The step and the host's queue (R10, R53, R72) -/

/-- With no command waiting the codec waits unchanged (R31, R195). -/
theorem step_of_pending_nil (s : State) (h : s.pending = []) : step s = .next s := by
  simp only [step, fetch, h]

/-- With a command waiting the step is the decoded command, on the state without it (R10). -/
theorem step_of_pending_cons (s : State) (c : Command) (rest : List Command) (h : s.pending = c :: rest) :
    step s = exec (decodeCommand c) { s with pending := rest } := by
  simp only [step, fetch, h]

/-- R72: the command an instruction is encoded as decodes to that instruction. -/
theorem decodeCommand_of_encode (i : Instr) (c : Command) (h : encode i = .command c) : decodeCommand c = i := by
  cases i <;> cases h <;> rfl

/-- Every step completes: it waits, or it is an instruction. -/
theorem step_completes (s : State) : ∃ t : State, step s = .next t := by
  cases h : s.pending with
  | nil => exact ⟨s, step_of_pending_nil s h⟩
  | cons c rest =>
    rw [step_of_pending_cons s c rest h]
    exact exec_completes _ _

/-- Settles O45: no instruction leaves the conditions of R41 or the bound of R150, and a step is an instruction or
waits. -/
theorem everyInstructionCompletes : Obligations.EveryInstructionCompletes :=
  ⟨step_completes, exec_completes⟩

/-- Settles O46: from the queue's two cases, and decoding what an instruction is encoded as. -/
theorem stepRunsTheNextCommand : Obligations.StepRunsTheNextCommand := by
  refine ⟨fun s c rest => step_of_pending_cons _ c rest rfl, fun s i c rest h => ?_, step_of_pending_nil⟩
  rw [step_of_pending_cons _ c rest rfl, decodeCommand_of_encode i c h]

end Sys2Proof.Machine

/-! ## What SUBMIT and a header can answer (R140, R142, R149; log 8) -/

namespace Sys2Proof.Machine

/-- All that SUBMIT can come to: latched, overflowing, or the loop over RXBUF with the chunk behind it (R140). -/
theorem execSubmit_cases (chunk : Bytes) (s t : State) (h : execSubmit chunk s = .next t) :
    (∃ c, s.rxFault = some c ∧ t = latchedAnswer c s) ∨
    (s.rxFault = none ∧ s.params.rxBufCap < s.rxbuf.length + chunk.length ∧
      t = (s.latch .payloadTooLarge).respond (.payloads []) .payloadTooLarge) ∨
    (s.rxFault = none ∧ s.rxbuf.length + chunk.length ≤ s.params.rxBufCap ∧ ∃ k u out st,
      drain k (s.setRxbuf (s.rxbuf ++ chunk)) [] = .ok (u, out, st) ∧ t = u.respond (.payloads out) st) := by
  cases hf : s.rxFault with
  | some c =>
    rw [execSubmit_latched chunk s c hf] at h
    cases h
    exact .inl ⟨c, rfl, rfl⟩
  | none =>
    by_cases hc : s.rxbuf.length + chunk.length ≤ s.params.rxBufCap
    · obtain ⟨k, u, out, st, hd, he⟩ := execSubmit_fits_total chunk s hf hc
      rw [he] at h
      cases h
      exact .inr (.inr ⟨rfl, hc, k, u, out, st, hd, rfl⟩)
    · rw [execSubmit_overflow chunk s hf (Nat.lt_of_not_le hc)] at h
      cases h
      exact .inr (.inl ⟨rfl, Nat.lt_of_not_le hc, rfl⟩)

/-- All that a header's meaning can come to: latched, or its one pass, answered whether or not the loop would go on. -/
theorem receiveHeader_cases (r : ParseOutcome) (s t : State) (h : receiveHeader r s = .next t) :
    (∃ c, s.rxFault = some c ∧ t = latchedAnswer c s) ∨
    (s.rxFault = none ∧ ∃ u out st,
      (runPass r s [] = .ok (.done u out st) ∨ runPass r s [] = .ok (.again u out)) ∧
      t = u.respond (.payloads out) st) := by
  unfold receiveHeader at h
  cases hf : s.rxFault with
  | some c =>
    rw [hf] at h
    cases h
    exact .inl ⟨c, rfl, rfl⟩
  | none =>
    rw [hf] at h
    cases hp : runPass r s [] with
    | error f => exact absurd hp (runPass_ne_error r s [] f)
    | ok p =>
      rw [hp] at h
      cases p with
      | done u out st =>
        cases h
        exact .inr ⟨rfl, u, out, st, .inl rfl, rfl⟩
      | again u out =>
        cases h
        exact .inr ⟨rfl, u, out, .ok, .inr rfl, rfl⟩

/-- A pass leaves the end of what was in RXBUF (R22). -/
theorem runPass_rxbuf (r : ParseOutcome) (s t : State) (out out' : List Bytes) (st : Status)
    (h : runPass r s out = .ok (.done t out' st) ∨ runPass r s out = .ok (.again t out')) : t.rxbuf <:+ s.rxbuf := by
  obtain ⟨-, e⟩ | ⟨_, -, e⟩ | ⟨-, e⟩ | ⟨_, _, _, -, -, e⟩ | ⟨_, _, _, -, -, -, e⟩ | ⟨hl, n, key, -, -, hle, e⟩ :=
    runPass_cases r s out <;> rw [e] at h
  case inr.inr.inr.inr.inr =>
    rw [extractFrame_ok _ _ _ _ _ (by simpa using hle)] at h
    cases hd : (s.recordParsed n key).params.drainPolicy <;>
      (rw [hd] at h; obtain h | h := h <;> cases h; exact List.drop_suffix _ _)
  all_goals (obtain h | h := h <;> cases h; exact List.suffix_refl _)

/-! ## The frame of every instruction (R20, R50, R59, R105) -/

/-- SUBMIT writes the receiver's registers and the response only. -/
theorem execSubmit_frame (chunk : Bytes) (s t : State) (h : execSubmit chunk s = .next t) :
    t = { s with rxbuf := t.rxbuf, rxFault := t.rxFault, lastRxLen := t.lastRxLen, lastRxKey := t.lastRxKey,
                 response := t.response } := by
  obtain ⟨c, -, rfl⟩ | ⟨-, -, rfl⟩ | ⟨-, -, k, u, out, st, hd, rfl⟩ := execSubmit_cases chunk s t h
  · rfl
  · rfl
  · exact congrArg (State.respond (.payloads out) st) (drain_frame k _ u [] out st hd)

/-- A header, run as an instruction, writes what SUBMIT may (log 8). -/
theorem receiveHeader_frame (r : ParseOutcome) (s t : State) (h : receiveHeader r s = .next t) :
    t = { s with rxbuf := t.rxbuf, rxFault := t.rxFault, lastRxLen := t.lastRxLen, lastRxKey := t.lastRxKey,
                 response := t.response } := by
  obtain ⟨c, -, rfl⟩ | ⟨-, u, out, st, hp, rfl⟩ := receiveHeader_cases r s t h
  · rfl
  · exact congrArg (State.respond (.payloads out) st) (runPass_frame r s u [] out st hp)

/-- A header class writes what SUBMIT may, by its pass. -/
theorem exec_header_frame (i : Instr) (s t : State) (hi : i.isHeader = true) (h : exec i s = .next t) :
    t = { s with rxbuf := t.rxbuf, rxFault := t.rxFault, lastRxLen := t.lastRxLen, lastRxKey := t.lastRxKey,
                 response := t.response } := by
  obtain ⟨r, hr⟩ := exec_header i hi
  exact receiveHeader_frame r s t (hr s ▸ h)

/-- A key draw changes the key source only (R106). -/
theorem State.afterDraw_frame (s : State) :
    s.afterDraw = { s with keyScript := s.afterDraw.keyScript, keyDraws := s.afterDraw.keyDraws } := by
  unfold State.afterDraw; split <;> rfl

/-- All that WRAP can come to: a response alone, or, in the masking role, a draw whose key is recorded (R101, R105). -/
theorem execWrap_cases (payload : Bytes) (s t : State) (h : execWrap payload s = .next t) :
    (∃ data st, t = s.respond data st) ∨
    (s.role = .masking ∧ ∃ key data st, t = (s.afterDraw.recordTxKey key).respond data st) := by
  unfold execWrap at h
  split at h
  · cases h
    exact .inl ⟨_, _, rfl⟩
  · cases hr : s.role <;> rw [hr] at h <;> cases h
    · exact .inl ⟨_, _, rfl⟩
    · exact .inr ⟨rfl, _, _, _, rfl⟩

/-- WRAP writes LAST_TX_KEY, the key source and the response only. -/
theorem execWrap_frame (payload : Bytes) (s t : State) (h : execWrap payload s = .next t) :
    t = { s with lastTxKey := t.lastTxKey, keyScript := t.keyScript, keyDraws := t.keyDraws,
                 response := t.response } := by
  obtain ⟨data, st, rfl⟩ | ⟨-, key, data, st, rfl⟩ := execWrap_cases payload s t h
  · rfl
  · exact congrArg (fun u => (u.recordTxKey key).respond data st) (State.afterDraw_frame s)

/-- Settles O49: the receiver's commands and headers by their passes, WRAP by its two outcomes, and every other
command by the one response it gives. -/
theorem commandsWriteOnlyTheirRegisters : Obligations.CommandsWriteOnlyTheirRegisters := by
  intro i s t h
  cases i
  case submit chunk => exact execSubmit_frame chunk s t h
  case wrap payload => exact execWrap_frame payload s t h
  case reset => cases h; exact ⟨rfl, rfl, rfl⟩
  case maskApply | parseHeader | readTxKey | readRxLast | reserved => cases h; rfl
  -- the ten header classes
  all_goals exact exec_header_frame _ s t rfl h

/-- Settles O47: RESET by its writes; every other instruction's frame leaves out ROLE and the parameters. -/
theorem roleChangesAtResetOnly : Obligations.RoleChangesAtResetOnly := by
  intro i s t h
  have frame := commandsWriteOnlyTheirRegisters i s t h
  cases i
  case reset => cases h; exact ⟨rfl, .inr rfl⟩
  all_goals exact ⟨(congrArg State.params frame :), .inl (congrArg State.role frame :)⟩

/-! ## RX_FAULT and RXBUF (R22, R23, R188, R189) -/

/-- SUBMIT keeps a latched fault (R142). -/
theorem execSubmit_keeps_fault (chunk : Bytes) (s t : State) (c : RxFault) (hf : s.rxFault = some c)
    (h : execSubmit chunk s = .next t) : t.rxFault = some c := by
  rw [execSubmit_latched chunk s c hf] at h
  cases h
  exact hf

/-- A header class keeps a latched fault (R142, log 8). -/
theorem exec_header_keeps_fault (i : Instr) (s t : State) (c : RxFault) (hi : i.isHeader = true)
    (hf : s.rxFault = some c) (h : exec i s = .next t) : t.rxFault = some c := by
  obtain ⟨r, hr⟩ := exec_header i hi
  obtain ⟨_, -, rfl⟩ | ⟨hn, -⟩ := receiveHeader_cases r s t (hr s ▸ h)
  · exact hf
  · rw [hf] at hn; cases hn

/-- Settles O48: SUBMIT and the headers answer a latched fault without a write, RESET clears it, and the frame of every
other command leaves RX_FAULT out. -/
theorem faultKeepsItsFirstCode : Obligations.FaultKeepsItsFirstCode := by
  intro i s t h
  have frame := commandsWriteOnlyTheirRegisters i s t h
  cases i
  case submit chunk => exact ⟨fun c hf => .inl (execSubmit_keeps_fault chunk s t c hf h), fun _ _ => .inl ⟨chunk, rfl⟩⟩
  case reset role => cases h; exact ⟨fun _ _ => .inr ⟨role, rfl, rfl⟩, fun _ hne => absurd rfl hne⟩
  case wrap | maskApply | parseHeader | readTxKey | readRxLast | reserved =>
    have same : t.rxFault = s.rxFault := (congrArg State.rxFault frame :)
    exact ⟨fun _ hf => .inl (same.trans hf), fun hf hne => absurd (same.trans hf) hne⟩
  -- the ten header classes
  all_goals exact ⟨fun c hf => .inl (exec_header_keeps_fault _ s t c rfl hf h), fun _ _ => .inr rfl⟩

/-- SUBMIT appends its chunk when it fits and no fault is latched, and consumes from the front only (R22). -/
theorem execSubmit_rxbuf (chunk : Bytes) (s t : State) (h : execSubmit chunk s = .next t) :
    if s.rxFault ≠ none ∨ s.params.rxBufCap < s.rxbuf.length + chunk.length then t.rxbuf = s.rxbuf
    else t.rxbuf <:+ s.rxbuf ++ chunk := by
  obtain ⟨c, hf, rfl⟩ | ⟨-, hc, rfl⟩ | ⟨hf, hc, k, u, out, st, hd, rfl⟩ := execSubmit_cases chunk s t h
  · rw [if_pos (.inl (by simp [hf]))]; rfl
  · rw [if_pos (.inr hc)]; rfl
  · rw [if_neg (not_or.2 ⟨not_not.2 hf, Nat.not_lt.2 hc⟩)]
    exact drain_rxbuf k _ u [] out st hd

/-- A header class consumes from the front only (R22, log 8). -/
theorem exec_header_rxbuf (i : Instr) (s t : State) (hi : i.isHeader = true) (h : exec i s = .next t) :
    t.rxbuf <:+ s.rxbuf := by
  obtain ⟨r, hr⟩ := exec_header i hi
  obtain ⟨c, -, rfl⟩ | ⟨-, u, out, st, hp, rfl⟩ := receiveHeader_cases r s t (hr s ▸ h)
  · exact List.suffix_refl _
  · exact runPass_rxbuf r s u [] out st hp

/-- Settles O37: SUBMIT and the headers consume from the front only, RESET empties RXBUF, and the frame of every other
command leaves RXBUF out. -/
theorem bufferIsAppendedAndConsumedOnly : Obligations.BufferIsAppendedAndConsumedOnly := by
  intro i s t h
  have frame := commandsWriteOnlyTheirRegisters i s t h
  cases i
  case submit chunk => exact execSubmit_rxbuf chunk s t h
  case reset => cases h; rfl
  case wrap | maskApply | parseHeader | readTxKey | readRxLast | reserved => exact (congrArg State.rxbuf frame :)
  -- the ten header classes
  all_goals exact exec_header_rxbuf _ s t rfl h

/-! ## PHASE and Parse (R27, R127, R133) -/

/-- PHASE is FAILED exactly while a fault is latched (R27). -/
theorem State.phase_failed_iff (s : State) : s.phase = some .failed ↔ ∃ c, s.rxFault = some c := by
  unfold State.phase
  cases s.rxFault with
  | some c => simp
  | none =>
    cases parse s.rxbuf s.role with
    | parsed h n key => dsimp only; split <;> simp
    | _ => simp

/-- PHASE is BLOCKED_LENGTH exactly when no fault is latched and the front has LEN7 = 127 (R27). -/
theorem State.phase_blockedLength_iff (s : State) :
    s.phase = some .blockedLength ↔ s.rxFault = none ∧ parse s.rxbuf s.role = .unsupportedLength := by
  unfold State.phase
  cases s.rxFault with
  | some c => simp
  | none =>
    cases parse s.rxbuf s.role with
    | parsed h n key => dsimp only; split <;> simp
    | _ => simp

/-- With no fault latched and an INCOMPLETE front, PHASE is WAIT_HEADER (R27). -/
theorem State.phase_waitHeader (s : State) (hf : s.rxFault = none) (hp : parse s.rxbuf s.role = .incomplete) :
    s.phase = some .waitHeader := by
  simp only [State.phase, hf, hp]

/-- With no fault latched and a PARSED front that is not all there, PHASE is WAIT_PAYLOAD (R27). -/
theorem State.phase_waitPayload (s : State) (h : Nat) (n : Len64) (key : Option Key) (hf : s.rxFault = none)
    (hp : parse s.rxbuf s.role = .parsed h n key) (hlt : s.rxbuf.length < h + n.toNat) :
    s.phase = some .waitPayload := by
  simp only [State.phase, hf, hp, hlt, if_true]

/-- A PARSED header has the MASK bit the role expects, and past its length extension it is parseKeyed's (R127). -/
theorem parse_parsed_mask (w : Bytes) (role : Role) (h : Nat) (n : Len64) (key : Option Key)
    (hp : parse w role = .parsed h n key) :
    maskField w = expectedMask role ∧ ∃ ext, parseKeyed w ext n = .parsed h n key := by
  unfold parse at hp
  split at hp; · cases hp
  split at hp; · cases hp
  split at hp; · cases hp
  split at hp; · cases hp
  rename_i hm
  refine ⟨not_not.1 hm, ?_⟩
  split at hp; · cases hp
  split at hp
  · split at hp; · cases hp
    obtain ⟨-, -, rfl, -⟩ := parseKeyed_parsed w 2 _ n h key hp
    exact ⟨2, hp⟩
  · obtain ⟨-, -, rfl, -⟩ := parseKeyed_parsed w 0 _ n h key hp
    exact ⟨0, hp⟩

/-- The non-masking role parses a key with every header, the masking role with none (R157). -/
theorem parse_parsed_key (w : Bytes) (role : Role) (h : Nat) (n : Len64) (key : Option Key)
    (hp : parse w role = .parsed h n key) : key.isSome = decide (role = .nonMasking) := by
  obtain ⟨hm, ext, hk⟩ := parse_parsed_mask w role h n key hp
  obtain ⟨-, -, -, rfl⟩ := parseKeyed_parsed w ext n n h key hk
  rw [hm]
  cases role <;> rfl

/-- A byte that is present is the same with more bytes behind it. -/
theorem byteAt_append (w x : Bytes) (i : Nat) (h : i < w.length) : byteAt (w ++ x) i = byteAt w i :=
  List.getD_append w x 0 i h

/-- A header whose key bytes are present is read the same with more bytes behind them (R133). -/
theorem parseKeyed_append (w x : Bytes) (ext : Nat) (n : Len64) (h2 : 2 ≤ w.length)
    (h : parseKeyed w ext n ≠ .incomplete) : parseKeyed (w ++ x) ext n = parseKeyed w ext n := by
  have hm : maskField (w ++ x) = maskField w := by unfold maskField; rw [byteAt_append w x 1 (by omega)]
  have hl : headerLength ext (maskField w) ≤ w.length := by
    by_contra hlt
    exact h (by rw [parseKeyed, if_pos (Nat.lt_of_not_le hlt)])
  have hk : maskField w = 1 → keyField (w ++ x) ext = keyField w ext := by
    intro h1
    rw [h1] at hl
    simp only [headerLength, if_true] at hl
    unfold keyField
    rw [byteAt_append w x _ (by omega), byteAt_append w x _ (by omega), byteAt_append w x _ (by omega),
      byteAt_append w x _ (by omega)]
  have hx : ¬ (w ++ x).length < headerLength ext (maskField w) := by rw [List.length_append]; omega
  simp only [parseKeyed, hm, hx, Nat.not_lt.2 hl, if_false]
  by_cases h1 : maskField w = 1
  · rw [hk h1]
  · rw [if_neg h1, if_neg h1]

/-- A verdict other than INCOMPLETE is the same with more bytes behind it (R133). -/
theorem parse_append (w x : Bytes) (role : Role) (h : parse w role ≠ .incomplete) :
    parse (w ++ x) role = parse w role := by
  have h2 : 2 ≤ w.length := by
    by_contra hlt
    exact h (by rw [parse, if_pos (Nat.lt_of_not_le hlt)])
  have b0 := byteAt_append w x 0 (by omega)
  have b1 := byteAt_append w x 1 (by omega)
  have hfin : finField (w ++ x) = finField w := by unfold finField; rw [b0]
  have hop : opcodeField (w ++ x) = opcodeField w := by unfold opcodeField; rw [b0]
  have hmask : maskField (w ++ x) = maskField w := by unfold maskField; rw [b1]
  have hlen7 : len7Field (w ++ x) = len7Field w := by unfold len7Field; rw [b1]
  have hx2 : ¬ (w ++ x).length < 2 := by rw [List.length_append]; omega
  simp only [parse, hx2, Nat.not_lt.2 h2, if_false, hfin, hop, hmask, hlen7] at h ⊢
  split_ifs at h ⊢ with _ _ _ _ _ hx4 hw4 hw4
  -- FIN, OPCODE, MASK and LEN7 = 127 decide from the first two bytes
  · rfl
  · rfl
  · rfl
  · rfl
  -- LEN7 = 126: with the length extension present in `w` it is present in `w ++ x`
  · rfl
  · rw [List.length_append] at hx4; omega
  · exact absurd rfl h
  · have hlen16 : len16Field (w ++ x) = len16Field w := by
      unfold len16Field; rw [byteAt_append w x 2 (by omega), byteAt_append w x 3 (by omega)]
    rw [hlen16]
    exact parseKeyed_append w x 2 _ h2 h
  · exact parseKeyed_append w x 0 _ h2 h

/-! ## Where SUBMIT's loop comes to rest (R140, R143, R144, R147, R148, R158) -/

/-- What a pass that ends the loop leaves, and its status: all of R140's returns. -/
inductive PassEnds (r : ParseOutcome) (s : State) : State → Status → Prop where
  | incomplete (hr : r = .incomplete) : PassEnds r s s .ok
  | invalid (reason : FramingReason) (hr : r = .invalid reason) :
      PassEnds r s (s.latch (.framing reason)) reason.status
  | unsupportedLength (hr : r = .unsupportedLength) : PassEnds r s s .unsupportedLengthScheme
  | tooLarge (h : Nat) (n : Len64) (key : Option Key) (hr : r = .parsed h n key) :
      PassEnds r s ((s.recordParsed n key).latch .payloadTooLarge) .payloadTooLarge
  | waits (h : Nat) (n : Len64) (key : Option Key) (hr : r = .parsed h n key)
      (hfit : h + n.toNat ≤ s.params.rxBufCap) (hlt : s.rxbuf.length < h + n.toNat) :
      PassEnds r s (s.recordParsed n key) .ok
  | extracts (h : Nat) (n : Len64) (key : Option Key) (hr : r = .parsed h n key) (hone : s.params.drainPolicy = .one) :
      PassEnds r s ((s.recordParsed n key).setRxbuf (s.rxbuf.drop (h + n.toNat))) .ok

/-- A pass that ends the loop ends it in one of R140's returns. -/
theorem runPass_done (r : ParseOutcome) (s t : State) (out out' : List Bytes) (st : Status)
    (h : runPass r s out = .ok (.done t out' st)) : PassEnds r s t st := by
  obtain ⟨hr, e⟩ | ⟨reason, hr, e⟩ | ⟨hr, e⟩ | ⟨hl, n, key, hr, -, e⟩ | ⟨hl, n, key, hr, hfit, hlt, e⟩ |
    ⟨hl, n, key, hr, -, hle, e⟩ := runPass_cases r s out <;> rw [e] at h
  case inr.inr.inr.inr.inr =>
    rw [extractFrame_ok _ _ _ _ _ (by simpa using hle)] at h
    cases hd : s.params.drainPolicy <;> rw [State.recordParsed_params, hd] at h <;> cases h
    exact .extracts hl n key hr hd
  all_goals cases h
  · exact .incomplete hr
  · exact .invalid reason hr
  · exact .unsupportedLength hr
  · exact .tooLarge hl n key hr
  · exact .waits hl n key hr hfit hlt

/-- The receiver at rest under ALL after a SUBMIT with this status: a fault is latched, or the front of RXBUF is one the
loop cannot go on with and the diagnostic registers show it (R27, R144, R158). -/
inductive State.Rests (t : State) : Status → Prop where
  | latched (c : RxFault) (hf : t.rxFault = some c) : Rests t c.status
  | incomplete (hf : t.rxFault = none) (hp : parse t.rxbuf t.role = .incomplete) : Rests t .ok
  | blocked (hf : t.rxFault = none) (hp : parse t.rxbuf t.role = .unsupportedLength) : Rests t .unsupportedLengthScheme
  | waits (hf : t.rxFault = none) (h : Nat) (n : Len64) (key : Option Key) (hp : parse t.rxbuf t.role = .parsed h n key)
      (hfit : h + n.toNat ≤ t.params.rxBufCap) (hlt : t.rxbuf.length < h + n.toNat)
      (hlen : t.lastRxLen = some n) (hkey : t.lastRxKey = key) : Rests t .ok

/-- Under ALL the pass that ends the loop leaves the receiver at rest. -/
theorem PassEnds.rests (s t : State) (st : Status) (hall : s.params.drainPolicy = .all) (hf : s.rxFault = none)
    (h : PassEnds (parse s.rxbuf s.role) s t st) : t.Rests st := by
  cases h with
  | incomplete hr => exact .incomplete hf hr
  | invalid reason hr => exact .latched (.framing reason) rfl
  | unsupportedLength hr => exact .blocked hf hr
  | tooLarge h n key hr => exact .latched .payloadTooLarge rfl
  | waits h n key hr hfit hlt => exact .waits hf h n key hr hfit hlt rfl rfl
  | extracts h n key hr hone => rw [hall] at hone; cases hone

/-- Under ALL the loop leaves the receiver at rest: a pass that goes on keeps RX_FAULT = NONE. -/
theorem drain_rests (k : Nat) (s t : State) (out out' : List Bytes) (st : Status)
    (hall : s.params.drainPolicy = .all) (hf : s.rxFault = none) (h : drain k s out = .ok (t, out', st)) :
    t.Rests st := by
  induction k generalizing s out with
  | zero => cases h
  | succ k ih =>
    unfold drain at h
    split at h
    · cases h
    · rename_i hp
      cases h
      exact (runPass_done _ _ _ _ _ _ hp).rests s t st hall hf
    · rename_i u o hp
      obtain ⟨-, hl, n, key, -, -, -, -, rfl, -⟩ := runPass_again _ _ _ _ _ hp
      exact ih ((s.recordParsed n key).setRxbuf _) o hall hf h

/-- A response is not part of the receiver. -/
theorem State.Rests.respond {t : State} {st : Status} (h : t.Rests st) (data : ResponseData) (st' : Status) :
    (t.respond data st').Rests st := by
  cases h with
  | latched c hf => exact .latched c hf
  | incomplete hf hp => exact .incomplete hf hp
  | blocked hf hp => exact .blocked hf hp
  | waits hf h n key hp hfit hlt hlen hkey => exact .waits hf h n key hp hfit hlt hlen hkey

/-- Under ALL every SUBMIT leaves the receiver at rest, with the status it answers. -/
theorem execSubmit_rests (chunk : Bytes) (s t : State) (hall : s.params.drainPolicy = .all)
    (h : execSubmit chunk s = .next t) : ∃ ps st, t.response = some ⟨.payloads ps, st⟩ ∧ t.Rests st := by
  obtain ⟨c, hf, rfl⟩ | ⟨-, -, rfl⟩ | ⟨hf, -, k, u, out, st, hd, rfl⟩ := execSubmit_cases chunk s t h
  · exact ⟨[], c.status, rfl, .latched c hf⟩
  · exact ⟨[], .payloadTooLarge, rfl, .latched .payloadTooLarge rfl⟩
  · exact ⟨out, st, rfl, (drain_rests k (s.setRxbuf (s.rxbuf ++ chunk)) u [] out st hall hf hd).respond _ _⟩

/-- A chunk that fits behind a front with LEN7 = 127 is buffered and answered with no payload (R148). -/
theorem execSubmit_blocked (chunk : Bytes) (s : State) (hb : s.phase = some .blockedLength)
    (hc : s.rxbuf.length + chunk.length ≤ s.params.rxBufCap) :
    execSubmit chunk s =
      .next ((s.setRxbuf (s.rxbuf ++ chunk)).respond (.payloads []) .unsupportedLengthScheme) := by
  obtain ⟨hf, hp⟩ := s.phase_blockedLength_iff.1 hb
  have hp' : parse (s.rxbuf ++ chunk) s.role = .unsupportedLength := by
    rw [parse_append _ _ _ (by simp [hp]), hp]
  refine execSubmit_fits chunk s 1 (s.setRxbuf (s.rxbuf ++ chunk), [], .unsupportedLengthScheme) hf hc ?_
  simp [drain, hp', runPass]

/-- The PHASE and the RX_FAULT that R158 gives with each status under ALL. -/
theorem State.Rests.phase {t : State} {st : Status} : t.Rests st →
    match st with
    | .ok => t.phase = some .waitHeader ∨ t.phase = some .waitPayload
    | .unsupportedLengthScheme => t.phase = some .blockedLength
    | .framingFinClear => t.phase = some .failed ∧ t.rxFault = some (.framing .finClear)
    | .framingBadOpcode => t.phase = some .failed ∧ t.rxFault = some (.framing .badOpcode)
    | .framingMaskMismatch => t.phase = some .failed ∧ t.rxFault = some (.framing .maskMismatch)
    | .payloadTooLarge => t.phase = some .failed ∧ t.rxFault = some .payloadTooLarge
    | .incomplete => False
    | .refused => False := by
  intro h
  cases h with
  | latched c hf =>
    have hfail := t.phase_failed_iff.2 ⟨c, hf⟩
    match c, hf with
    | .framing .finClear, hf | .framing .badOpcode, hf | .framing .maskMismatch, hf | .payloadTooLarge, hf =>
      exact ⟨hfail, hf⟩
  | incomplete hf hp => exact .inl (t.phase_waitHeader hf hp)
  | blocked hf hp => exact t.phase_blockedLength_iff.2 ⟨hf, hp⟩
  | waits hf h n key hp _ hlt _ _ => exact .inr (t.phase_waitPayload h n key hf hp hlt)

/-- Settles O38: every SUBMIT under ALL leaves the receiver at rest; from FAILED it answers the latched code, and from
BLOCKED_LENGTH the front stays as it is behind a longer RXBUF. -/
theorem statusTellsThePhase : Obligations.StatusTellsThePhase := by
  intro s chunk hall
  obtain ⟨t, ht⟩ := execSubmit_completes chunk s
  obtain ⟨ps, st, hresp, hrests⟩ := execSubmit_rests chunk s t hall ht
  refine ⟨t, ps, st, ht, hresp, hrests.phase, fun hfailed => ?_, fun hblocked hc => ?_⟩
  · obtain ⟨c, hf⟩ := s.phase_failed_iff.1 hfailed
    rw [execSubmit_latched chunk s c hf] at ht
    cases ht
    cases hresp
    exact ⟨State.phase_failed_iff _ |>.2 ⟨c, hf⟩, rfl⟩
  · rw [execSubmit_blocked chunk s hblocked hc] at ht
    cases ht
    cases hresp
    exact ⟨hrests.phase, rfl, rfl⟩

/-! ## The registers a SUBMIT leaves (R25, R32, R144, R157) -/

/-- LAST_RX_LEN and LAST_RX_KEY are those found, or those of a header parsed in the same role (R144). -/
def State.LastRxFrom (s t : State) : Prop :=
  (t.lastRxLen = s.lastRxLen ∧ t.lastRxKey = s.lastRxKey) ∨
    ∃ w h n key, parse w s.role = .parsed h n key ∧ t.lastRxLen = some n ∧ t.lastRxKey = key

/-- A pass that ends the loop writes the diagnostic registers of the header it parsed, or none. -/
theorem PassEnds.lastRxFrom (w : Bytes) (s t : State) (st : Status) (h : PassEnds (parse w s.role) s t st) :
    s.LastRxFrom t := by
  cases h with
  | incomplete | invalid | unsupportedLength => exact .inl ⟨rfl, rfl⟩
  | tooLarge h n key hr | waits h n key hr | extracts h n key hr => exact .inr ⟨w, h, n, key, hr, rfl, rfl⟩

/-- The loop writes the diagnostic registers of a header it parsed, or none. -/
theorem drain_lastRxFrom (k : Nat) (s t : State) (out out' : List Bytes) (st : Status)
    (h : drain k s out = .ok (t, out', st)) : s.LastRxFrom t := by
  induction k generalizing s out with
  | zero => cases h
  | succ k ih =>
    unfold drain at h
    split at h
    · cases h
    · rename_i hp
      cases h
      exact (runPass_done _ _ _ _ _ _ hp).lastRxFrom _ s t st
    · rename_i u o hp
      obtain ⟨-, hl, n, key, hr, -, -, -, rfl, -⟩ := runPass_again _ _ _ _ _ hp
      obtain ⟨hlen, hkey⟩ | later := ih _ _ h
      · exact .inr ⟨s.rxbuf, hl, n, key, hr, hlen, hkey⟩
      · exact .inr later

/-- SUBMIT writes the diagnostic registers of a header it parsed, or none. -/
theorem execSubmit_lastRxFrom (chunk : Bytes) (s t : State) (h : execSubmit chunk s = .next t) : s.LastRxFrom t := by
  obtain ⟨c, -, rfl⟩ | ⟨-, -, rfl⟩ | ⟨-, -, k, u, out, st, hd, rfl⟩ := execSubmit_cases chunk s t h
  · exact .inl ⟨rfl, rfl⟩
  · exact .inl ⟨rfl, rfl⟩
  · exact drain_lastRxFrom k (s.setRxbuf (s.rxbuf ++ chunk)) u [] out st hd

/-- SUBMIT keeps RXBUF within RX_BUF_CAP (R42): a chunk that does not fit is not appended. -/
theorem execSubmit_bufferFits (chunk : Bytes) (s t : State) (hs : s.bufferFits) (h : execSubmit chunk s = .next t) :
    t.bufferFits := by
  have hparams : t.params = s.params := (congrArg State.params (execSubmit_frame chunk s t h) :)
  have hbuf := execSubmit_rxbuf chunk s t h
  unfold State.bufferFits at hs ⊢
  rw [hparams]
  split at hbuf
  · rw [hbuf]; exact hs
  · have := hbuf.length_le
    rw [List.length_append] at this
    omega

/-! ## The invariant (R28, R29, R32, R42, R144, R157, R170) -/

/-- LAST_RX_LEN stays in range: a parsed length is (R32). -/
theorem State.LastRxFrom.lengthInRange {s t : State} (h : s.LastRxFrom t) (hs : s.lengthInRange) : t.lengthInRange := by
  intro m hm
  obtain ⟨hlen, -⟩ | ⟨w, h, n, key, hp, hlen, -⟩ := h
  · exact hs m (hlen ▸ hm)
  · obtain ⟨-, -, -, hn⟩ := parse_parsed_bounds w s.role h n key hp
    rw [hlen] at hm
    cases hm
    exact hn

/-- The roles keep their keys apart: a header is parsed with a key in the non-masking role only (R157). -/
theorem State.LastRxFrom.roleKeys {s t : State} (h : s.LastRxFrom t) (hrole : t.role = s.role)
    (htx : t.lastTxKey = s.lastTxKey) (hs : s.roleKeys) : t.roleKeys := by
  unfold State.roleKeys at hs ⊢
  rw [hrole, htx]
  obtain ⟨hlen, hkey⟩ | ⟨w, h, n, key, hp, hlen, hkey⟩ := h
  · rw [hlen, hkey]; exact hs
  · have hsome := parse_parsed_key w s.role h n key hp
    rw [hlen, hkey]
    refine ⟨fun hm => ?_, fun hn => ⟨(hs.2 hn).1, ?_⟩⟩
    · rw [hm] at hsome; simpa using hsome
    · rw [hsome, hn]; rfl

/-- The front of a receiver at rest is not INVALID (R28). -/
theorem State.Rests.framed {t : State} {st : Status} (h : t.Rests st) : t.framed := by
  intro _ hnone reason hinv
  cases h with
  | latched c hf => rw [hf] at hnone; cases hnone
  | incomplete _ hp | blocked _ hp | waits _ _ _ _ hp => rw [hp] at hinv; cases hinv

/-- A receiver at rest is not READY (R29). -/
theorem State.Rests.drained {t : State} {st : Status} (h : t.Rests st) : t.drained := by
  intro _ hready
  cases h with
  | latched c hf => rw [t.phase_failed_iff.2 ⟨c, hf⟩] at hready; cases hready
  | incomplete hf hp => rw [t.phase_waitHeader hf hp] at hready; cases hready
  | blocked hf hp => rw [t.phase_blockedLength_iff.2 ⟨hf, hp⟩] at hready; cases hready
  | waits hf h n key hp _ hlt => rw [t.phase_waitPayload h n key hf hp hlt] at hready; cases hready

/-- The diagnostic registers of a receiver at rest show the header at its front (R144). -/
theorem State.Rests.observed {t : State} {st : Status} (h : t.Rests st) : t.observed := by
  intro _ hnone h' n' key' hp'
  cases h with
  | latched c hf => rw [hf] at hnone; cases hnone
  | incomplete _ hp | blocked _ hp => rw [hp] at hp'; cases hp'
  | waits _ h n key hp hfit _ hlen hkey =>
    rw [hp] at hp'
    cases hp'
    exact ⟨hlen, hkey, hfit⟩

/-- SUBMIT keeps the invariant: under ALL it leaves the receiver at rest, whatever was there before. -/
theorem execSubmit_inv (chunk : Bytes) (s t : State) (hs : s.Inv) (h : execSubmit chunk s = .next t) : t.Inv := by
  have frame := execSubmit_frame chunk s t h
  have hparams : t.params = s.params := (congrArg State.params frame :)
  have hlast := execSubmit_lastRxFrom chunk s t h
  have hrests : t.params.drainPolicy = .all → ∃ st, t.Rests st := fun hall =>
    have ⟨_, st, _, hr⟩ := execSubmit_rests chunk s t (hparams ▸ hall) h
    ⟨st, hr⟩
  exact {
    bufferFits := execSubmit_bufferFits chunk s t hs.bufferFits h
    lengthInRange := hlast.lengthInRange hs.lengthInRange
    framed := fun hall => (hrests hall).elim fun _ hr => hr.framed hall
    drained := fun hall => (hrests hall).elim fun _ hr => hr.drained hall
    observed := fun hall => (hrests hall).elim fun _ hr => hr.observed hall
    roleKeys := hlast.roleKeys (congrArg State.role frame :) (congrArg State.lastTxKey frame :) hs.roleKeys }

/-- The invariant does not speak of the key source, the queue or the response, nor, in the masking role, of
LAST_TX_KEY. -/
theorem State.Inv.of_receiver_eq {s t : State} (hs : s.Inv)
    (h : t = { s with lastTxKey := t.lastTxKey, keyScript := t.keyScript, keyDraws := t.keyDraws,
                      pending := t.pending, response := t.response })
    (htx : s.role = .nonMasking → t.lastTxKey = s.lastTxKey) : t.Inv := by
  rw [h]
  exact {
    bufferFits := hs.bufferFits
    lengthInRange := hs.lengthInRange
    framed := hs.framed
    drained := hs.drained
    observed := hs.observed
    roleKeys := ⟨hs.roleKeys.1, fun hn => ⟨(htx hn).trans (hs.roleKeys.2 hn).1, (hs.roleKeys.2 hn).2⟩⟩ }

/-- A codec with nothing received and no key shown meets the invariant (R210). -/
theorem State.Inv.of_cleared (s : State) (hbuf : s.rxbuf = []) (hf : s.rxFault = none) (htx : s.lastTxKey = none)
    (hlen : s.lastRxLen = none) (hkey : s.lastRxKey = none) : s.Inv := by
  have rests : s.Rests .ok := .incomplete hf (by rw [hbuf]; rfl)
  exact {
    bufferFits := by simp [State.bufferFits, hbuf]
    lengthInRange := fun n hn => by rw [hlen] at hn; cases hn
    framed := rests.framed
    drained := rests.drained
    observed := rests.observed
    roleKeys := ⟨fun _ => hkey, fun _ => ⟨htx, by rw [hkey, hlen]; rfl⟩⟩ }

/-- Every command keeps the invariant: RESET clears the registers, SUBMIT leaves the receiver at rest, WRAP shows a
key in the masking role only, and the others write nothing the invariant speaks of. -/
theorem exec_command_inv (i : Instr) (s t : State) (hi : i.isHeader = false) (hs : s.Inv) (h : exec i s = .next t) :
    t.Inv := by
  cases i
  case reset role => cases h; exact .of_cleared _ rfl rfl rfl rfl rfl
  case submit chunk => exact execSubmit_inv chunk s t hs h
  case wrap payload =>
    refine hs.of_receiver_eq ?_ fun hn => ?_
    · have hq : t.pending = s.pending := (congrArg State.pending (execWrap_frame payload s t h) :)
      rw [hq]
      exact execWrap_frame payload s t h
    · obtain ⟨data, st, rfl⟩ | ⟨hm, -⟩ := execWrap_cases payload s t h
      · rfl
      · rw [hn] at hm; cases hm
  case maskApply | parseHeader | readTxKey | readRxLast | reserved =>
    cases h; exact hs.of_receiver_eq rfl fun _ => rfl
  -- the ten header classes
  all_goals cases hi

/-- A command decodes to no header (R72). -/
theorem decodeCommand_not_header (c : Command) : (decodeCommand c).isHeader = false := by
  unfold decodeCommand; split <;> rfl

/-- Settles O51: a step waits, or it is a command on the state without that command in the queue. -/
theorem stepKeepsInv : Obligations.StepKeepsInv := by
  intro s t hs h
  cases hq : s.pending with
  | nil => rw [step_of_pending_nil s hq] at h; cases h; exact hs
  | cons c rest =>
    rw [step_of_pending_cons s c rest hq] at h
    have hs' : State.Inv { s with pending := rest } := hs.of_receiver_eq rfl fun _ => rfl
    exact exec_command_inv _ _ t (decodeCommand_not_header c) hs' h

/-! ## R28 under DRAIN_POLICY = ONE (log 12) -/

/-- What a fresh masking codec under ONE holds after SUBMIT [82 01 41 81 01 42]: one frame is extracted and the
INVALID one behind it, with OPCODE = 1, stands at the front. -/
def invalidFrontUnderOne : State :=
  { State.resetWith ⟨100, .one⟩ .masking with
    rxbuf := [0x81, 0x01, 0x42], lastRxLen := some 1, response := some ⟨.payloads [[0x41]], .ok⟩ }

/-- The run that leaves it (R140, R146). -/
theorem submitAll_invalidFrontUnderOne :
    submitAll [[0x82, 0x01, 0x41, 0x81, 0x01, 0x42]] (State.resetWith ⟨100, .one⟩ .masking) =
      some (invalidFrontUnderOne, [[0x41]], [.ok]) := by decide

/-- Refutes O53: under ONE the SUBMIT ends after its one extraction, and the INVALID frame behind it is left at the
front with RX_FAULT = NONE. -/
theorem not_noFaultMeansFrontNotInvalid : ¬ Obligations.NoFaultMeansFrontNotInvalid := by
  intro h
  have hfront : parse invalidFrontUnderOne.rxbuf invalidFrontUnderOne.role = .invalid .badOpcode := by decide
  exact h _ _ _ _ _ _ submitAll_invalidFrontUnderOne rfl _ hfront

end Sys2Proof.Machine

/-! ## SUBMIT and the writer's side (R59, R140) -/

namespace Sys2Proof.Machine

/-- The receiver of `s` (ROLE, its registers and the parameters) beside all the rest of `w`: LAST_TX_KEY, the key
source, the host's queue and the last response. -/
def State.withRestOf (s w : State) : State :=
  { w with role := s.role, rxbuf := s.rxbuf, rxFault := s.rxFault, lastRxLen := s.lastRxLen,
           lastRxKey := s.lastRxKey, params := s.params }

@[simp] theorem State.withRestOf_role (s w : State) : (s.withRestOf w).role = s.role := rfl
@[simp] theorem State.withRestOf_rxbuf (s w : State) : (s.withRestOf w).rxbuf = s.rxbuf := rfl
@[simp] theorem State.withRestOf_params (s w : State) : (s.withRestOf w).params = s.params := rfl

@[simp] theorem State.withRestOf_recordParsed (s w : State) (n : Len64) (key : Option Key) :
    (s.withRestOf w).recordParsed n key = (s.recordParsed n key).withRestOf w := rfl

/-- The pass that ends in the same receiver beside the rest of `w`. -/
def Pass.withRestOf (w : State) : Pass → Pass
  | .done s out st => .done (s.withRestOf w) out st
  | .again s out => .again (s.withRestOf w) out

/-- Taking a frame out reads and writes the receiver only. -/
theorem extractFrame_withRestOf (h n : Nat) (key : Option Key) (s w : State) (out : List Bytes)
    (hle : h + n ≤ s.rxbuf.length) :
    extractFrame h n key (s.withRestOf w) out = (extractFrame h n key s out).map (Pass.withRestOf w) := by
  rw [extractFrame_ok h n key s out hle, extractFrame_ok h n key (s.withRestOf w) out hle, State.withRestOf_params]
  cases s.params.drainPolicy <;> rfl

/-- A pass reads and writes the receiver only. -/
theorem runPass_withRestOf (r : ParseOutcome) (s w : State) (out : List Bytes) :
    runPass r (s.withRestOf w) out = (runPass r s out).map (Pass.withRestOf w) := by
  cases r with
  | incomplete | invalid | unsupportedLength => rfl
  | parsed h n key =>
    simp only [runPass, passParsed, State.withRestOf_params, State.withRestOf_rxbuf, State.withRestOf_recordParsed]
    by_cases hcap : h + n.toNat > s.params.rxBufCap
    · simp only [hcap, if_true]; rfl
    by_cases hlt : s.rxbuf.length < h + n.toNat
    · simp only [hcap, hlt, if_true, if_false]; rfl
    · simp only [hcap, hlt, if_false]
      exact extractFrame_withRestOf _ _ _ _ _ _ (Nat.not_lt.1 hlt)

/-- The loop reads and writes the receiver only. -/
theorem drain_withRestOf (k : Nat) (s t w : State) (out out' : List Bytes) (st : Status)
    (h : drain k s out = .ok (t, out', st)) : drain k (s.withRestOf w) out = .ok (t.withRestOf w, out', st) := by
  induction k generalizing s out with
  | zero => cases h
  | succ k ih =>
    rw [drain] at h ⊢
    rw [State.withRestOf_rxbuf, State.withRestOf_role, runPass_withRestOf]
    cases hp : runPass (parse s.rxbuf s.role) s out with
    | error f => exact absurd hp (runPass_ne_error _ _ _ f)
    | ok p =>
      rw [hp] at h
      cases p with
      | done u o st' => cases h; rfl
      | again u o => exact ih u o h

/-- SUBMIT reads and writes the receiver only, but for the response it gives. -/
theorem execSubmit_withRestOf (chunk : Bytes) (s t w : State) (h : execSubmit chunk s = .next t) :
    execSubmit chunk (s.withRestOf w) = .next { t.withRestOf w with response := t.response } := by
  obtain ⟨c, hf, rfl⟩ | ⟨hf, hc, rfl⟩ | ⟨hf, hc, k, u, out, st, hd, rfl⟩ := execSubmit_cases chunk s t h
  · exact execSubmit_latched chunk _ c hf
  · exact execSubmit_overflow chunk _ hf hc
  · exact execSubmit_fits chunk (s.withRestOf w) k _ hf hc (drain_withRestOf k _ u w [] out st hd)

/-- Settles O13: a state with the same receiver is that receiver beside another writer's side, on which SUBMIT answers
alike; what it leaves to the writer is its frame. -/
theorem submitIgnoresTheWriter : Obligations.SubmitIgnoresTheWriter := by
  intro chunk s s' hrole hbuf hfault hlen hkey hparams
  have hs' : s.withRestOf s' = s' := by rw [State.withRestOf, hrole, hbuf, hfault, hlen, hkey, hparams]
  obtain ⟨t, ht⟩ := execSubmit_completes chunk s
  have ht' := execSubmit_withRestOf chunk s t s' ht
  rw [hs'] at ht'
  have frame := execSubmit_frame chunk s t ht
  exact ⟨t, _, ht, ht', rfl, rfl, rfl, rfl, rfl, (congrArg State.lastTxKey frame :),
    (congrArg State.keyScript frame :), (congrArg State.keyDraws frame :)⟩

end Sys2Proof.Machine

/-! ## The classes of R75 by the fields of bytes 0 and 1 (R61, R75) -/

namespace Sys2Proof
open Machine

/-- R75's class of a header by FIN, OPCODE, MASK and LEN7, in a role: one constructor for each row of the table. -/
inductive ClassOf : Role → BitVec 1 → BitVec 4 → BitVec 1 → BitVec 7 → HeaderClass → Prop where
  | rejectFinClear {role opcode mask len7} : ClassOf role 0#1 opcode mask len7 .rejectFinClear
  | rejectOpcode {role opcode mask len7} (hop : opcode ≠ 2#4) : ClassOf role 1#1 opcode mask len7 .rejectOpcode
  | rejectMaskNm {len7} : ClassOf .nonMasking 1#1 2#4 0#1 len7 .rejectMaskNm
  | rejectMaskM {len7} : ClassOf .masking 1#1 2#4 1#1 len7 .rejectMaskM
  | lenExt64Nm : ClassOf .nonMasking 1#1 2#4 1#1 127#7 .lenExt64Nm
  | lenExt64M : ClassOf .masking 1#1 2#4 0#1 127#7 .lenExt64M
  | lenExt16Nm : ClassOf .nonMasking 1#1 2#4 1#1 126#7 .lenExt16Nm
  | lenExt16M : ClassOf .masking 1#1 2#4 0#1 126#7 .lenExt16M
  | lenShortNm {len7} (hshort : len7.toNat ≤ 125) : ClassOf .nonMasking 1#1 2#4 1#1 len7 .lenShortNm
  | lenShortM {len7} (hshort : len7.toNat ≤ 125) : ClassOf .masking 1#1 2#4 0#1 len7 .lenShortM

/-- LEN7 is 127, 126 or a short length (R62). -/
theorem len7_cases (len7 : BitVec 7) : len7 = 127#7 ∨ len7 = 126#7 ∨ len7.toNat ≤ 125 := by
  revert len7; decide

/-- A short length is neither 126 nor 127. -/
theorem len7_short_ne {len7 : BitVec 7} (hshort : len7.toNat ≤ 125) : len7 ≠ 127#7 ∧ len7 ≠ 126#7 := by
  constructor <;> rintro rfl <;> exact absurd hshort (by decide)

/-- "Every 16-bit H falls into one class" (R75). -/
theorem ClassOf.exists (role : Role) (fin : BitVec 1) (opcode : BitVec 4) (mask : BitVec 1) (len7 : BitVec 7) :
    ∃ c, ClassOf role fin opcode mask len7 c := by
  obtain rfl | rfl := bit_cases fin
  · exact ⟨_, .rejectFinClear⟩
  by_cases hop : opcode = 2#4
  case neg => exact ⟨_, .rejectOpcode hop⟩
  subst hop
  cases role <;> obtain rfl | rfl := bit_cases mask
  case nonMasking.inl => exact ⟨_, .rejectMaskNm⟩
  case masking.inr => exact ⟨_, .rejectMaskM⟩
  -- MASK is the one the role expects: LEN7 decides
  all_goals obtain rfl | rfl | hshort := len7_cases len7
  · exact ⟨_, .lenExt64Nm⟩
  · exact ⟨_, .lenExt16Nm⟩
  · exact ⟨_, .lenShortNm hshort⟩
  · exact ⟨_, .lenExt64M⟩
  · exact ⟨_, .lenExt16M⟩
  · exact ⟨_, .lenShortM hshort⟩

-- each field of bytes 0 and 1, and of the word they make, is the one it was built from (R61, R75)
section Fields
variable (fin : BitVec 1) (rsv : BitVec 3) (opcode : BitVec 4) (mask : BitVec 1) (len7 : BitVec 7)

@[simp] theorem headerByte0_fin : (headerByte0 fin rsv opcode).extractLsb' 7 1 = fin := (byte0_fields fin rsv opcode).1
@[simp] theorem headerByte0_rsv : (headerByte0 fin rsv opcode).extractLsb' 4 3 = rsv :=
  (byte0_fields fin rsv opcode).2.1
@[simp] theorem headerByte0_opcode : (headerByte0 fin rsv opcode).extractLsb' 0 4 = opcode :=
  (byte0_fields fin rsv opcode).2.2
@[simp] theorem headerByte1_mask : (headerByte1 mask len7).extractLsb' 7 1 = mask := (byte1_fields mask len7).1
@[simp] theorem headerByte1_len7 : (headerByte1 mask len7).extractLsb' 0 7 = len7 := (byte1_fields mask len7).2

@[simp] theorem hRsv_headerWord (b1 : Byte) : hRsv (headerWord (headerByte0 fin rsv opcode) b1) = rsv :=
  (headerWord_extract_high _ b1 4 3 (by omega)).trans (headerByte0_rsv fin rsv opcode)
@[simp] theorem hOpcode_headerWord (b1 : Byte) : hOpcode (headerWord (headerByte0 fin rsv opcode) b1) = opcode :=
  (headerWord_extract_high _ b1 0 4 (by omega)).trans (headerByte0_opcode fin rsv opcode)
@[simp] theorem hMask_headerWord (b0 : Byte) : hMask (headerWord b0 (headerByte1 mask len7)) = mask :=
  (headerWord_extract_low b0 _ 7 1 (by omega)).trans (headerByte1_mask mask len7)
@[simp] theorem hLen7_headerWord (b0 : Byte) : hLen7 (headerWord b0 (headerByte1 mask len7)) = len7 :=
  (headerWord_extract_low b0 _ 0 7 (by omega)).trans (headerByte1_len7 mask len7)

end Fields

/-- The class table finds the class of the fields. -/
theorem ClassOf.classify {role : Role} {fin : BitVec 1} {opcode : BitVec 4} {mask : BitVec 1} {len7 : BitVec 7}
    {c : HeaderClass} (hc : ClassOf role fin opcode mask len7 c) (rsv : BitVec 3) :
    classify role (headerWord (headerByte0 fin rsv opcode) (headerByte1 mask len7)) = some c := by
  rw [classify_fields, headerByte0_fin, headerByte0_opcode, headerByte1_mask, headerByte1_len7]
  cases hc with
  | rejectFinClear | rejectMaskNm | rejectMaskM | lenExt64Nm | lenExt64M | lenExt16Nm | lenExt16M => rfl
  | rejectOpcode hop => rw [if_neg (by decide), if_pos hop]
  | lenShortNm hshort | lenShortM hshort => simp [len7_short_ne hshort]

/-- Any two bytes are bytes 0 and 1 of a header with some fields, of some class (R61, R75). -/
theorem exists_classOf (role : Role) (b0 b1 : Byte) : ∃ fin rsv opcode mask len7 c,
    b0 = headerByte0 fin rsv opcode ∧ b1 = headerByte1 mask len7 ∧ ClassOf role fin opcode mask len7 c := by
  obtain ⟨c, hc⟩ := ClassOf.exists role (b0.extractLsb' 7 1) (b0.extractLsb' 0 4) (b1.extractLsb' 7 1)
    (b1.extractLsb' 0 7)
  exact ⟨_, _, _, _, _, c, (byte0_split b0).symm, (byte1_split b1).symm, hc⟩

/-! ## LEN16 and the key on the wire (R45, R46) -/

/-- LEN16 is joined from its own two bytes. -/
theorem joinLen16_bytes (len16 : BitVec 16) : joinLen16 (len16.extractLsb' 8 8) (len16.extractLsb' 0 8) = len16 :=
  BitVec.extractLsb'_append_extractLsb' (w := 8) (len := 8)

/-- Two bytes are those of the LEN16 they join to. -/
theorem len16Bytes_joinLen16 (b2 b3 : Byte) : len16Bytes (joinLen16 b2 b3) = [b2, b3] := by
  rw [len16Bytes, joinLen16, BitVec.extractLsb'_append_eq_left, BitVec.extractLsb'_append_eq_right]

/-- A key is joined from its own four bytes. -/
theorem joinKey_bytes (key : Key) :
    joinKey (key.extractLsb' 24 8) (key.extractLsb' 16 8) (key.extractLsb' 8 8) (key.extractLsb' 0 8) = key := by
  rw [joinKey, BitVec.extractLsb'_append_extractLsb'_eq_extractLsb' (start₁ := 16) (len₁ := 8) rfl,
    BitVec.extractLsb'_append_extractLsb'_eq_extractLsb' (start₁ := 8) (len₁ := 8) rfl,
    BitVec.extractLsb'_append_extractLsb'_eq_extractLsb' (start₁ := 0) (len₁ := 8) rfl]
  exact BitVec.extractLsb'_eq_self

/-- The bits above the last byte are those of the word without it. -/
theorem extract_append_byte {w : Nat} (x : BitVec w) (b : Byte) (i : Nat) :
    (x ++ b).extractLsb' (i + 8) 8 = x.extractLsb' i 8 :=
  BitVec.extractLsb'_append_eq_of_le (Nat.le_add_left 8 i)

/-- Four bytes are those of the key they join to. -/
theorem keyBytes_joinKey (k0 k1 k2 k3 : Byte) : keyBytes (joinKey k0 k1 k2 k3) = [k0, k1, k2, k3] := by
  have e2 := (extract_append_byte (k0 ++ k1 ++ k2) k3 0).trans BitVec.extractLsb'_append_eq_right
  have e1 := (extract_append_byte (k0 ++ k1 ++ k2) k3 8).trans
    ((extract_append_byte (k0 ++ k1) k2 0).trans BitVec.extractLsb'_append_eq_right)
  have e0 := (extract_append_byte (k0 ++ k1 ++ k2) k3 16).trans
    ((extract_append_byte (k0 ++ k1) k2 8).trans BitVec.extractLsb'_append_eq_left)
  have e3 := BitVec.extractLsb'_append_eq_right (a := k0 ++ k1 ++ k2) (b := k3)
  simp only [keyBytes, List.cons.injEq, and_true]
  exact ⟨e0, e1, e2, e3⟩

/-- takeLen16 answers exactly on the bytes of its LEN16, and leaves what is behind them. -/
theorem takeLen16_ok_iff (w rest : Bytes) (len16 : BitVec 16) :
    takeLen16 w = .ok (len16, rest) ↔ w = len16Bytes len16 ++ rest := by
  constructor
  · intro h
    match w, h with
    | b2 :: b3 :: _, h =>
      cases h
      rw [len16Bytes_joinLen16]
      rfl
  · rintro rfl
    exact congrArg (fun l => Except.ok (l, rest)) (joinLen16_bytes len16)

/-- takeKey answers exactly on the bytes of its key, and leaves what is behind them. -/
theorem takeKey_ok_iff (w rest : Bytes) (key : Key) : takeKey w = .ok (key, rest) ↔ w = keyBytes key ++ rest := by
  constructor
  · intro h
    match w, h with
    | k0 :: k1 :: k2 :: k3 :: _, h =>
      cases h
      rw [keyBytes_joinKey]
      rfl
  · rintro rfl
    exact congrArg (fun k => Except.ok (k, rest)) (joinKey_bytes key)

/-! ## Decoding and encoding a header (R61, R75; log 9) -/

/-- LEN_EXT16.NM reads exactly its LEN16 and key (R61). -/
theorem readClass_lenExt16Nm_iff (h : BitVec 16) (w rest : Bytes) (i : Instr) :
    readClass .lenExt16Nm h w = .ok (i, rest) ↔
      ∃ len16 key, i = .lenExt16Nm (hRsv h) len16 key ∧ w = len16Bytes len16 ++ (keyBytes key ++ rest) := by
  constructor
  · intro hr
    simp only [readClass] at hr
    split at hr
    · cases hr
    · rename_i len16 w2 hlen
      split at hr
      · cases hr
      · rename_i key w3 hkey
        cases hr
        exact ⟨len16, key, rfl, (takeKey_ok_iff _ _ _).1 hkey ▸ (takeLen16_ok_iff _ _ _).1 hlen⟩
  · rintro ⟨len16, key, rfl, rfl⟩
    simp only [readClass, (takeLen16_ok_iff _ _ _).2 rfl, (takeKey_ok_iff _ _ _).2 rfl]

/-- LEN_EXT16.M reads exactly its LEN16 (R61). -/
theorem readClass_lenExt16M_iff (h : BitVec 16) (w rest : Bytes) (i : Instr) :
    readClass .lenExt16M h w = .ok (i, rest) ↔
      ∃ len16, i = .lenExt16M (hRsv h) len16 ∧ w = len16Bytes len16 ++ rest := by
  constructor
  · intro hr
    simp only [readClass] at hr
    split at hr
    · cases hr
    · rename_i len16 w2 hlen
      cases hr
      exact ⟨len16, rfl, (takeLen16_ok_iff _ _ _).1 hlen⟩
  · rintro ⟨len16, rfl, rfl⟩
    simp only [readClass, (takeLen16_ok_iff _ _ _).2 rfl]

/-- LEN_SHORT.NM reads exactly its key (R61). -/
theorem readClass_lenShortNm_iff (h : BitVec 16) (w rest : Bytes) (i : Instr) :
    readClass .lenShortNm h w = .ok (i, rest) ↔
      ∃ key, i = .lenShortNm (hRsv h) (hLen7 h) key ∧ w = keyBytes key ++ rest := by
  constructor
  · intro hr
    simp only [readClass] at hr
    split at hr
    · cases hr
    · rename_i key w2 hkey
      cases hr
      exact ⟨key, rfl, (takeKey_ok_iff _ _ _).1 hkey⟩
  · rintro ⟨key, rfl, rfl⟩
    simp only [readClass, (takeKey_ok_iff _ _ _).2 rfl]

/-- A header of a class is read as that class. -/
theorem ClassOf.decodeHeader {role : Role} {fin : BitVec 1} {opcode : BitVec 4} {mask : BitVec 1} {len7 : BitVec 7}
    {c : HeaderClass} (hc : ClassOf role fin opcode mask len7 c) (rsv : BitVec 3) (tail : Bytes) :
    decodeHeader role (headerByte0 fin rsv opcode :: headerByte1 mask len7 :: tail) =
      readClass c (headerWord (headerByte0 fin rsv opcode) (headerByte1 mask len7)) tail := by
  simp only [Sys2Proof.decodeHeader, hc.classify]

/-- Decoding what a well-formed header is encoded as, in a role its row is tried in (R61, R75). -/
theorem decodeHeader_of_encode (role : Role) (i : Instr) (b rest : Bytes) (hwf : i.wf = true)
    (hrole : i.inRole role = true) (henc : encode i = .header b) : decodeHeader role (b ++ rest) = .ok (i, rest) := by
  cases i <;> cases henc
  case rejectFinClear => simp [ClassOf.rejectFinClear.decodeHeader, readClass]
  case rejectOpcode opcode _ _ =>
    have hop : opcode ≠ 2#4 := by simpa [Instr.wf] using hwf
    simp [(ClassOf.rejectOpcode hop).decodeHeader, readClass]
  -- the other rows are of one role
  all_goals obtain rfl := of_decide_eq_true hrole
  case rejectMaskNm => simp [ClassOf.rejectMaskNm.decodeHeader, readClass]
  case rejectMaskM => simp [ClassOf.rejectMaskM.decodeHeader, readClass]
  case lenExt64Nm => simp [ClassOf.lenExt64Nm.decodeHeader, readClass]
  case lenExt64M => simp [ClassOf.lenExt64M.decodeHeader, readClass]
  case lenShortM => simp [(ClassOf.lenShortM (of_decide_eq_true hwf)).decodeHeader, readClass]
  case lenExt16Nm rsv len16 key =>
    exact (ClassOf.lenExt16Nm.decodeHeader rsv _).trans
      ((readClass_lenExt16Nm_iff _ _ _ _).2 ⟨len16, key, by rw [hRsv_headerWord], rfl⟩)
  case lenExt16M rsv len16 =>
    exact (ClassOf.lenExt16M.decodeHeader rsv _).trans
      ((readClass_lenExt16M_iff _ _ _ _).2 ⟨len16, by rw [hRsv_headerWord], rfl⟩)
  case lenShortNm rsv len7 key =>
    exact ((ClassOf.lenShortNm (of_decide_eq_true hwf)).decodeHeader rsv _).trans
      ((readClass_lenShortNm_iff _ _ _ _).2 ⟨key, by rw [hRsv_headerWord, hLen7_headerWord], rfl⟩)

/-- Settles O23: a header decodes by the class of its fields, a command by its code. -/
theorem decodeEncodeRoundTrip : Obligations.DecodeEncodeRoundTrip := by
  intro role i rest hwf hrole
  cases henc : encode i with
  | header b => exact decodeHeader_of_encode role i b rest hwf hrole henc
  | command c => exact decodeCommand_of_encode i c henc

/-- A header decodes from bytes whose fields have a class, as that class reads what is behind them. -/
theorem decodeHeader_ok (role : Role) (w rest : Bytes) (i : Instr) (h : decodeHeader role w = .ok (i, rest)) :
    ∃ fin rsv opcode mask len7 tail c, w = headerByte0 fin rsv opcode :: headerByte1 mask len7 :: tail ∧
      ClassOf role fin opcode mask len7 c ∧
      readClass c (headerWord (headerByte0 fin rsv opcode) (headerByte1 mask len7)) tail = .ok (i, rest) := by
  match w, h with
  | b0 :: b1 :: tail, h =>
    obtain ⟨fin, rsv, opcode, mask, len7, c, rfl, rfl, hc⟩ := exists_classOf role b0 b1
    rw [hc.decodeHeader] at h
    exact ⟨fin, rsv, opcode, mask, len7, tail, c, rfl, hc, h⟩

/-- Settles O24: the fields of bytes 0 and 1 have a class, and what the class reads is encoded as the bytes read. -/
theorem decodedHeaderIsItsEncoding : Obligations.DecodedHeaderIsItsEncoding := by
  intro role w rest i h
  obtain ⟨fin, rsv, opcode, mask, len7, tail, c, rfl, hc, hread⟩ := decodeHeader_ok role w rest i h
  cases hc
  case lenExt16Nm =>
    obtain ⟨len16, key, rfl, rfl⟩ := (readClass_lenExt16Nm_iff _ _ _ _).1 hread
    exact ⟨rfl, rfl, rfl, _, rfl, by rw [hRsv_headerWord]; rfl⟩
  case lenExt16M =>
    obtain ⟨len16, rfl, rfl⟩ := (readClass_lenExt16M_iff _ _ _ _).1 hread
    exact ⟨rfl, rfl, rfl, _, rfl, by rw [hRsv_headerWord]; rfl⟩
  case lenShortNm hshort =>
    obtain ⟨key, rfl, rfl⟩ := (readClass_lenShortNm_iff _ _ _ _).1 hread
    rw [hRsv_headerWord, hLen7_headerWord]
    exact ⟨decide_eq_true hshort, rfl, rfl, _, rfl, rfl⟩
  -- the classes that need no more than H
  all_goals
    simp only [readClass, hRsv_headerWord, hOpcode_headerWord, hMask_headerWord, hLen7_headerWord] at hread
    cases hread
  case rejectOpcode hop => exact ⟨by simpa [Instr.wf] using hop, rfl, rfl, _, rfl, rfl⟩
  case lenShortM hshort => exact ⟨decide_eq_true hshort, rfl, rfl, _, rfl, rfl⟩
  all_goals exact ⟨rfl, rfl, rfl, _, rfl, rfl⟩

end Sys2Proof
/-! ## The class table and the parser (R75, R120, R121) -/

namespace Sys2Proof.Machine

section HeaderBytes
variable (fin : BitVec 1) (rsv : BitVec 3) (opcode : BitVec 4) (mask : BitVec 1) (len7 : BitVec 7) (b0 : Byte)
  (rest : Bytes)

/-- Parse by the fields of bytes 0 and 1, which are there: R121's checks from FIN on. -/
theorem parse_fields (role : Role) :
    parse (headerByte0 fin rsv opcode :: headerByte1 mask len7 :: rest) role =
      if fin = 0#1 then .invalid .finClear
      else if opcode ≠ 2#4 then .invalid .badOpcode
      else if mask ≠ expectedMask role then .invalid .maskMismatch
      else if len7 = 127#7 then .unsupportedLength
      else if len7 = 126#7 then
        if rest.length + 2 < 4 then .incomplete
        else parseKeyed (headerByte0 fin rsv opcode :: headerByte1 mask len7 :: rest) 2
          ((joinLen16 (byteAt rest 0) (byteAt rest 1)).setWidth 64)
      else parseKeyed (headerByte0 fin rsv opcode :: headerByte1 mask len7 :: rest) 0 (len7.setWidth 64) := by
  have hfin : finField (headerByte0 fin rsv opcode :: headerByte1 mask len7 :: rest) = fin := headerByte0_fin ..
  have hop : opcodeField (headerByte0 fin rsv opcode :: headerByte1 mask len7 :: rest) = opcode := headerByte0_opcode ..
  have hmask : maskField (headerByte0 fin rsv opcode :: headerByte1 mask len7 :: rest) = mask := headerByte1_mask ..
  have hlen7 : len7Field (headerByte0 fin rsv opcode :: headerByte1 mask len7 :: rest) = len7 := headerByte1_len7 ..
  rw [parse, hfin, hop, hmask, hlen7]
  exact if_neg (by simp)

/-- With MASK = 0 no key bytes are needed (R63). -/
theorem parseKeyed_unmasked (ext : Nat) (n : Len64) :
    parseKeyed (b0 :: headerByte1 0 len7 :: rest) ext n =
      if rest.length + 2 < 2 + ext then .incomplete else .parsed (2 + ext) n none := by
  have hmask : maskField (b0 :: headerByte1 0 len7 :: rest) = 0 := headerByte1_mask ..
  rw [parseKeyed, hmask]
  rfl

/-- With MASK = 1 the four key bytes are needed (R63, R66). -/
theorem parseKeyed_masked (ext : Nat) (n : Len64) :
    parseKeyed (b0 :: headerByte1 1 len7 :: rest) ext n =
      if rest.length + 2 < 6 + ext then .incomplete
      else .parsed (6 + ext) n (some (keyField (b0 :: headerByte1 1 len7 :: rest) ext)) := by
  have hmask : maskField (b0 :: headerByte1 1 len7 :: rest) = 1 := headerByte1_mask ..
  have hlen : headerLength ext 1 = 6 + ext := Nat.add_right_comm 2 ext 4
  rw [parseKeyed, hmask, hlen]
  rfl

/-- A header that FIN, OPCODE and MASK accept, of a length but 126 and 127 (R120). -/
theorem parse_short (role : Role) (hshort : len7.toNat ≤ 125) :
    parse (headerByte0 1 rsv 2 :: headerByte1 (expectedMask role) len7 :: rest) role =
      parseKeyed (headerByte0 1 rsv 2 :: headerByte1 (expectedMask role) len7 :: rest) 0 (len7.setWidth 64) := by
  rw [parse_fields]
  simp [len7_short_ne hshort]

/-- A header that FIN, OPCODE and MASK accept, with LEN7 = 126 (R120). -/
theorem parse_ext16 (role : Role) (b2 b3 : Byte) :
    parse (headerByte0 1 rsv 2 :: headerByte1 (expectedMask role) 126 :: b2 :: b3 :: rest) role =
      parseKeyed (headerByte0 1 rsv 2 :: headerByte1 (expectedMask role) 126 :: b2 :: b3 :: rest) 2
        ((joinLen16 b2 b3).setWidth 64) := by
  rw [parse_fields]
  simp [byteAt]

/-- A header that FIN, OPCODE and MASK accept, with LEN7 = 126 and its LEN16 there (R45, R120). -/
theorem parse_len16Bytes (role : Role) (len16 : BitVec 16) :
    parse (headerByte0 1 rsv 2 :: headerByte1 (expectedMask role) 126 :: (len16Bytes len16 ++ rest)) role =
      parseKeyed (headerByte0 1 rsv 2 :: headerByte1 (expectedMask role) 126 :: (len16Bytes len16 ++ rest)) 2
        (len16.setWidth 64) :=
  (parse_ext16 ..).trans (by rw [joinLen16_bytes]; rfl)

end HeaderBytes

/-- The key of a short masked header (R66). -/
theorem keyField_short (b0 b1 : Byte) (key : Key) (rest : Bytes) :
    keyField (b0 :: b1 :: (keyBytes key ++ rest)) 0 = key := joinKey_bytes key

/-- The key of a masked header with LEN7 = 126 (R66). -/
theorem keyField_ext16 (b0 b1 : Byte) (len16 : BitVec 16) (key : Key) (rest : Bytes) :
    keyField (b0 :: b1 :: (len16Bytes len16 ++ (keyBytes key ++ rest))) 2 = key := joinKey_bytes key

/-- Settles O22: the first two bytes have a class by their fields, and the parser's checks on those fields come to the
class's outcome. -/
theorem headerClassesAreTheParser : Obligations.HeaderClassesAreTheParser := by
  intro role b0 b1 rest
  obtain ⟨fin, rsv, opcode, mask, len7, c, rfl, rfl, hc⟩ := exists_classOf role b0 b1
  rw [hc.classify, hLen7_headerWord]
  cases hc
  case rejectFinClear | rejectMaskNm | rejectMaskM | lenExt64Nm | lenExt64M => exact parse_fields ..
  case rejectOpcode hop =>
    exact (parse_fields ..).trans (if_pos hop)
  case lenShortM hshort =>
    exact (parse_short rsv len7 rest .masking hshort).trans (parseKeyed_unmasked ..)
  case lenExt16M =>
    match rest with
    | [] | [_] => exact parse_fields ..
    | l1 :: l0 :: tail => exact (parse_ext16 rsv tail .masking l1 l0).trans (parseKeyed_unmasked ..)
  case lenShortNm hshort =>
    have hparse := (parse_short rsv len7 rest .nonMasking hshort).trans (parseKeyed_masked ..)
    match rest with
    | [] | [_] | [_, _] | [_, _, _] | k0 :: k1 :: k2 :: k3 :: tail => exact hparse
  case lenExt16Nm =>
    match rest with
    | [] | [_] => exact parse_fields ..
    | l1 :: l0 :: tail =>
      have hparse := (parse_ext16 rsv tail .nonMasking l1 l0).trans (parseKeyed_masked ..)
      match tail with
      | [] | [_] | [_, _] | [_, _, _] | k0 :: k1 :: k2 :: k3 :: tail => exact hparse

end Sys2Proof.Machine

/-! ## What each header class does (R75, R143, R144, R145, R147, R148; log 8) -/

namespace Sys2Proof.Machine

/-- With no fault latched the header's pass answers what it ends with. -/
theorem receiveHeader_of_done {r : ParseOutcome} {s t : State} {out : List Bytes} {st : Status} (hf : s.rxFault = none)
    (hp : runPass r s [] = .ok (.done t out st)) : receiveHeader r s = .next (t.respond (.payloads out) st) := by
  simp only [receiveHeader, hf, hp]

/-- With no fault latched a pass after which SUBMIT's loop goes on is answered OK. -/
theorem receiveHeader_of_again {r : ParseOutcome} {s t : State} {out : List Bytes} (hf : s.rxFault = none)
    (hp : runPass r s [] = .ok (.again t out)) : receiveHeader r s = .next (t.respond (.payloads out) .ok) := by
  simp only [receiveHeader, hf, hp]

/-- Settles O26: the pass on an INVALID outcome latches its reason. -/
theorem rejectedHeadersLatchTheirReason : Obligations.RejectedHeadersLatchTheirReason := by
  intro s hf
  have hpass (reason : FramingReason) :
      receiveHeader (.invalid reason) s = .next ((s.latch (.framing reason)).respond (.payloads []) reason.status) :=
    receiveHeader_of_done hf rfl
  exact ⟨fun _ _ _ _ => hpass .finClear, fun _ _ _ _ => hpass .badOpcode, fun _ _ => hpass .maskMismatch,
    fun _ _ => hpass .maskMismatch⟩

/-- Settles O27: the pass on UNSUPPORTED_LENGTH writes nothing. -/
theorem ext64HeadersAreReportedOnly : Obligations.Ext64HeadersAreReportedOnly := by
  intro s rsv hf
  have hpass : receiveHeader .unsupportedLength s = .next (s.respond (.payloads []) .unsupportedLengthScheme) :=
    receiveHeader_of_done hf rfl
  exact ⟨hpass, hpass⟩

/-- The pass on a PARSED outcome latches, waits or extracts, by the declared length, the capacity and the bytes
present. -/
theorem receiveHeader_parsed (h : Nat) (n : Len64) (key : Option Key) (s : State) (hf : s.rxFault = none) :
    parsedHeaderEffect h n.toNat key s (receiveHeader (.parsed h n key) s) := by
  unfold parsedHeaderEffect
  rw [BitVec.ofNat_toNat, BitVec.setWidth_eq]
  obtain ⟨e, -⟩ | ⟨_, e, -⟩ | ⟨e, -⟩ | ⟨_, _, _, e, hcap, hp⟩ | ⟨_, _, _, e, hcap, hlt, hp⟩ |
    ⟨_, _, _, e, hcap, hle, hp⟩ := runPass_cases (.parsed h n key) s [] <;> cases e
  · refine ⟨fun _ => receiveHeader_of_done hf hp, ?_, ?_⟩ <;> omega
  · refine ⟨?_, fun _ _ => receiveHeader_of_done hf hp, ?_⟩ <;> omega
  · refine ⟨by omega, by omega, fun _ _ => ?_⟩
    rw [extractFrame_ok _ _ _ (s.recordParsed n key) _ hle, State.recordParsed_params] at hp
    cases hd : s.params.drainPolicy <;> rw [hd] at hp
    · exact receiveHeader_of_again hf hp
    · exact receiveHeader_of_done hf hp

/-- Settles O28: the outcomes of the four classes are PARSED with the lengths LEN16 and LEN7. -/
theorem parsedHeadersLatchWaitOrExtract : Obligations.ParsedHeadersLatchWaitOrExtract := by
  intro s hf
  have effect {w : Nat} (hw : w ≤ 64) (h : Nat) (len : BitVec w) (key : Option Key) :
      parsedHeaderEffect h len.toNat key s (receiveHeader (.parsed h (len.setWidth 64) key) s) := by
    have heffect := receiveHeader_parsed h (len.setWidth 64) key s hf
    rwa [BitVec.toNat_setWidth_of_le hw] at heffect
  exact ⟨fun _ len16 key => effect (by decide) 8 len16 key, fun _ len7 key => effect (by decide) 6 len7 key,
    fun _ len16 => effect (by decide) 4 len16 none, fun _ len7 => effect (by decide) 2 len7 none⟩

/-- Settles O25: the class table and the command codes, run on the words written out. -/
theorem specEncodingsDecode : Obligations.SpecEncodingsDecode := by
  unfold Obligations.SpecEncodingsDecode; decide

/-- Settles O44: the reserved code's meaning is its response, and R180 numbers the status (log 7). -/
theorem reservedCodeIsRefused : Obligations.ReservedCodeIsRefused :=
  fun _ => ⟨rfl, rfl⟩

end Sys2Proof.Machine

/-! ## SUBMIT and the header at the front (R140, R146; log 8) -/

namespace Sys2Proof.Machine

/-- A header, run as an instruction in the role its row is tried in, is the receiver's pass on bytes it stands at the
front of (R75, R120). -/
theorem exec_header_eq_receiveHeader (role : Role) (i : Instr) (b rest : Bytes) (s : State) (hwf : i.wf = true)
    (hrole : i.inRole role = true) (henc : encode i = .header b) :
    exec i s = receiveHeader (parse (b ++ rest) role) s := by
  cases i <;> cases henc
  case rejectFinClear => simp only [List.cons_append, parse_fields]; rfl
  case rejectOpcode opcode _ _ =>
    have hop : opcode ≠ 2#4 := by simpa [Instr.wf] using hwf
    simp only [List.cons_append, parse_fields, if_pos hop]
    rfl
  -- the other rows are of one role
  all_goals obtain rfl := of_decide_eq_true hrole
  case rejectMaskNm | rejectMaskM | lenExt64Nm | lenExt64M => simp only [List.cons_append, parse_fields]; rfl
  case lenExt16Nm rsv len16 key =>
    have hparse := (parse_len16Bytes rsv (keyBytes key ++ rest) .nonMasking len16).trans (parseKeyed_masked ..)
    rw [keyField_ext16] at hparse
    exact congrArg (receiveHeader · s) hparse.symm
  case lenExt16M rsv len16 =>
    have hparse := (parse_len16Bytes rsv rest .masking len16).trans (parseKeyed_unmasked ..)
    exact congrArg (receiveHeader · s) hparse.symm
  case lenShortNm rsv len7 key =>
    have hparse := (parse_short rsv len7 (keyBytes key ++ rest) .nonMasking (of_decide_eq_true hwf)).trans
      (parseKeyed_masked ..)
    rw [keyField_short] at hparse
    exact congrArg (receiveHeader · s) hparse.symm
  case lenShortM rsv len7 =>
    have hparse := (parse_short rsv len7 rest .masking (of_decide_eq_true hwf)).trans (parseKeyed_unmasked ..)
    exact congrArg (receiveHeader · s) hparse.symm

/-- A pass that ends the loop under ALL gives no payload of its own (R146). -/
theorem runPass_done_out (r : ParseOutcome) (s t : State) (out out' : List Bytes) (st : Status)
    (hall : s.params.drainPolicy = .all) (h : runPass r s out = .ok (.done t out' st)) : out' = out := by
  obtain ⟨-, e⟩ | ⟨_, -, e⟩ | ⟨-, e⟩ | ⟨_, _, _, -, -, e⟩ | ⟨_, _, _, -, -, -, e⟩ | ⟨hl, n, key, -, -, hle, e⟩ :=
    runPass_cases r s out <;> rw [e] at h
  case inr.inr.inr.inr.inr =>
    rw [extractFrame_ok _ _ _ (s.recordParsed n key) _ hle, State.recordParsed_params, hall] at h
    cases h
  all_goals cases h; rfl

/-- The loop runs the same whatever the last response. -/
theorem drain_respond (k : Nat) (s t : State) (out out' : List Bytes) (st : Status) (data : ResponseData) (st' : Status)
    (h : drain k s out = .ok (t, out', st)) :
    drain k (s.respond data st') out = .ok (t.respond data st', out', st) := by
  have hrest := drain_withRestOf k s t (s.respond data st') out out' st h
  have hframe := drain_frame k s t out out' st h
  have ht : t.withRestOf (s.respond data st') = t.respond data st' := by rw [hframe]; rfl
  rwa [ht] at hrest

/-- SUBMIT whose first pass ends the loop answers what that pass ends with. -/
theorem execSubmit_of_done (chunk : Bytes) (s t : State) (out : List Bytes) (st : Status) (hf : s.rxFault = none)
    (hc : s.rxbuf.length + chunk.length ≤ s.params.rxBufCap)
    (hp : runPass (parse (s.rxbuf ++ chunk) s.role) (s.setRxbuf (s.rxbuf ++ chunk)) [] = .ok (.done t out st)) :
    execSubmit chunk s = .next (t.respond (.payloads out) st) := by
  refine execSubmit_fits chunk s 1 (t, out, st) hf hc ?_
  simp [drain, hp]

/-- SUBMIT whose first pass extracts a frame and goes on answers that payload, then what an empty SUBMIT answers from
there, with its state and status (R146, R159). -/
theorem execSubmit_of_again (chunk : Bytes) (s t : State) (out : List Bytes) (hf : s.rxFault = none)
    (hc : s.rxbuf.length + chunk.length ≤ s.params.rxBufCap)
    (hp : runPass (parse (s.rxbuf ++ chunk) s.role) (s.setRxbuf (s.rxbuf ++ chunk)) [] = .ok (.again t out)) :
    ∃ (u : State) (qs : List Bytes) (st : Status),
      execSubmit [] (t.respond (.payloads out) .ok) = .next (u.respond (.payloads qs) st) ∧
      execSubmit chunk s = .next (u.respond (.payloads (out ++ qs)) st) := by
  obtain ⟨-, hl, n, key, -, -, -, -, ht, -⟩ := runPass_again _ (s.setRxbuf (s.rxbuf ++ chunk)) _ _ _ hp
  have hft : t.rxFault = none := by rw [ht]; exact hf
  have hct : t.rxbuf.length ≤ t.params.rxBufCap := by rw [ht]; simp; omega
  obtain ⟨u, qs, st, hd⟩ := drain_total (drainBound t) t [] (Nat.lt_succ_self _)
  refine ⟨u, qs, st, ?_, ?_⟩
  · refine execSubmit_fits [] (t.respond (.payloads out) .ok) (drainBound t) (u.respond (.payloads out) .ok, qs, st)
      hft hct ?_
    rw [List.append_nil]
    exact drain_respond _ t u _ _ _ _ _ hd
  · refine execSubmit_fits chunk s (drainBound t + 1) (u, out ++ qs, st) hf hc ?_
    simp only [drain, State.setRxbuf_rxbuf, State.setRxbuf_role, hp]
    rw [drain_out, hd]

/-- Settles O30: the header that decodes at the front is the first pass of SUBMIT's loop. -/
theorem submitRunsTheHeaderAtTheFront : Obligations.SubmitRunsTheHeaderAtTheFront := by
  intro s chunk rest i hf hc hdec
  obtain ⟨hwf, hrole, -, b, henc, hb⟩ := decodedHeaderIsItsEncoding _ _ _ _ hdec
  have hexec : exec i (s.setRxbuf (s.rxbuf ++ chunk)) = _ :=
    exec_header_eq_receiveHeader s.role i b rest _ hwf hrole henc
  rw [← hb] at hexec
  cases hp : runPass (parse (s.rxbuf ++ chunk) s.role) (s.setRxbuf (s.rxbuf ++ chunk)) [] with
  | error f => exact absurd hp (runPass_ne_error _ _ _ f)
  | ok p =>
    cases p with
    | done t out st =>
      refine ⟨_, out, st, hexec.trans (receiveHeader_of_done hf hp), rfl,
        fun _ => execSubmit_of_done chunk s t out st hf hc hp, fun hall hne => ?_⟩
      exact absurd (runPass_done_out _ (s.setRxbuf (s.rxbuf ++ chunk)) _ _ _ _ hall hp) hne
    | again t out =>
      obtain ⟨hall, _, _, _, -, -, -, -, -, hout⟩ := runPass_again _ (s.setRxbuf (s.rxbuf ++ chunk)) _ _ _ hp
      obtain ⟨u, qs, st, hnext, hsubmit⟩ := execSubmit_of_again chunk s t out hf hc hp
      refine ⟨_, out, .ok, hexec.trans (receiveHeader_of_again hf hp), rfl, fun h => ?_, fun _ _ =>
        ⟨_, qs, st, hnext, rfl, hsubmit⟩⟩
      obtain hone | rfl := h
      · rw [State.setRxbuf_params, hone] at hall; cases hall
      · cases hout

end Sys2Proof.Machine

/-! ## MASK_APPLY and the phase of the pad (R90, R91, R92, R95) -/

namespace Sys2Proof.Machine

/-- MASK_APPLY answers the masked data and writes no register (R90). -/
theorem exec_maskApply (data : Bytes) (key : Key) (s : State) :
    exec (.maskApply data key) s = .next (s.respond (.bytes (maskApply data key)) .ok) := rfl

@[simp] theorem maskApply_length (x : Bytes) (key : Key) : (maskApply x key).length = x.length :=
  maskFrom_length key 0 x

/-- The pad of MASK_APPLY starts at K0 for the first byte (R90, R94). -/
theorem maskApply_getElem? (x : Bytes) (key : Key) (i : Nat) :
    (maskApply x key)[i]? = x[i]?.map (fun b => b ^^^ keyByte key (i % 4)) := by
  rw [maskApply, maskFrom_getElem?, Nat.zero_add]

/-- The pad repeats every four bytes, so only the phase mod 4 counts (R93). -/
theorem maskFrom_phase_mod_four (key : Key) (phase : Nat) (x : Bytes) :
    maskFrom key (phase % 4) x = maskFrom key phase x := by
  refine List.ext_getElem? fun i => ?_
  rw [maskFrom_getElem?, maskFrom_getElem?, Nat.mod_add_mod]

/-- The pad goes on over the second part from the phase the first part ends at (R95). -/
theorem maskFrom_append (key : Key) (phase : Nat) (a b : Bytes) :
    maskFrom key phase (a ++ b) = maskFrom key phase a ++ maskFrom key (phase + a.length) b := by
  induction a generalizing phase with
  | nil => rfl
  | cons x rest ih =>
    have hphase : phase + (x :: rest).length = phase + 1 + rest.length := by rw [List.length_cons]; omega
    rw [hphase, List.cons_append, maskFrom, maskFrom, ih, List.cons_append]

/-- From any phase the pad undoes itself: every byte meets the same key byte twice (R91). -/
@[simp] theorem maskFrom_maskFrom (key : Key) (phase : Nat) (x : Bytes) :
    maskFrom key phase (maskFrom key phase x) = x := by
  induction x generalizing phase with
  | nil => rfl
  | cons b rest ih => rw [maskFrom, maskFrom, ih, BitVec.xor_assoc, BitVec.xor_self, BitVec.xor_zero]

/-- Settles O3: the answer is maskApply of the data, read byte by byte. -/
theorem maskApplyXorsThePad : Obligations.MaskApplyXorsThePad := by
  intro data key s
  refine ⟨maskApply data key, exec_maskApply data key s, maskApply_length data key, fun i hi => ?_⟩
  rw [maskApply_getElem?, List.getElem?_eq_getElem hi]
  rfl

/-- Settles O4: the second MASK_APPLY runs the same pad from the same phase. -/
theorem maskingTwiceIsTheIdentity : Obligations.MaskingTwiceIsTheIdentity := by
  intro x k s
  have hback : maskApply (maskApply x k) k = x := maskFrom_maskFrom k 0 x
  refine ⟨_, _, maskApply x k, exec_maskApply x k s, rfl, exec_maskApply (maskApply x k) k _, ?_⟩
  rw [State.respond_response, hback]

/-- Settles O5: a byte of the output reads one byte of the input and one key byte, chosen by i mod 4. -/
theorem maskOutputIsLocal : Obligations.MaskOutputIsLocal := by
  intro x y k i j hmod hbyte
  refine ⟨maskApply_length x k, ?_⟩
  rw [maskApply_getElem?, maskApply_getElem?, hmod, hbyte]

/-- Settles O6: the pad goes on from len(a), and it repeats every four bytes. -/
theorem maskSplitKeepsThePhase : Obligations.MaskSplitKeepsThePhase := by
  intro a b k
  refine ⟨?_, fun s i => ?_⟩
  · rw [maskFrom_phase_mod_four, maskApply, maskFrom_append, Nat.zero_add, maskApply]
  · rw [maskFrom_getElem?, Nat.add_comm s i]
    rfl

end Sys2Proof.Machine

/-! ## The header WRAP writes, by its bytes (R45, R102, R103) -/

namespace Sys2Proof.Machine

/-- The LEN7 that WRAP writes for a payload of `len` bytes (R103). -/
def writtenLen7 (len : Nat) : BitVec 7 := if len < 126 then BitVec.ofNat 7 len else 126

/-- The length extension that WRAP writes for a payload of `len` bytes, empty below 126 (R103). -/
def writtenExt (len : Nat) : Bytes := if len < 126 then [] else len16Bytes (BitVec.ofNat 16 len)

-- the fields of each of the two length forms
theorem writtenLen7_short {len : Nat} (h : len < 126) : writtenLen7 len = BitVec.ofNat 7 len := if_pos h
theorem writtenLen7_long {len : Nat} (h : ¬ len < 126) : writtenLen7 len = 126 := if_neg h
theorem writtenExt_short {len : Nat} (h : len < 126) : writtenExt len = [] := if_pos h
theorem writtenExt_long {len : Nat} (h : ¬ len < 126) : writtenExt len = len16Bytes (BitVec.ofNat 16 len) := if_neg h

theorem writtenExt_length (len : Nat) : (writtenExt len).length = if len < 126 then 0 else 2 := by
  unfold writtenExt; split <;> rfl

/-- WRAP's header: FIN = 1, RSV = 000, OPCODE = 2, ROLE as the MASK bit, then the length fields (R102, R103). -/
theorem writeHeader_fields (role : Role) (len : Nat) :
    writeHeader role len =
      headerByte0 1 0 2 :: headerByte1 (roleBit role) (writtenLen7 len) :: writtenExt len := by
  unfold writeHeader writtenLen7 writtenExt; split <;> rfl

/-- Byte 1 is `(MASK << 7) | LEN7` (R61). -/
theorem headerByte1_toNat (mask : BitVec 1) (len7 : BitVec 7) :
    (headerByte1 mask len7).toNat = mask.toNat * 128 + len7.toNat := by
  revert mask len7; decide

/-- Byte 1's low seven bits, as a number, are LEN7. -/
theorem headerByte1_toNat_mod (mask : BitVec 1) (len7 : BitVec 7) :
    (headerByte1 mask len7).toNat % 128 = len7.toNat := by
  have hlen7 := len7.isLt
  rw [headerByte1_toNat]
  omega

/-- Byte 1 bit 7 is the MASK bit. -/
theorem headerByte1_bit7 (mask : BitVec 1) (len7 : BitVec 7) :
    (headerByte1 mask len7).getLsbD 7 = decide (mask = 1) := by
  revert mask len7; decide

/-- Byte 1 of a short header, written as the number it holds. -/
theorem headerByte1_ofNat (mask : BitVec 1) {len : Nat} (h : len < 128) :
    headerByte1 mask (BitVec.ofNat 7 len) = BitVec.ofNat 8 (mask.toNat * 128 + len) := by
  apply BitVec.eq_of_toNat_eq
  have hm := mask.isLt
  rw [headerByte1_toNat, BitVec.toNat_ofNat, BitVec.toNat_ofNat, Nat.mod_eq_of_lt h, Nat.mod_eq_of_lt (by omega)]

/-- LEN16 on the wire is the length big-endian (R45). -/
theorem len16Bytes_ofNat {len : Nat} (h : len < 65536) :
    len16Bytes (BitVec.ofNat 16 len) = [BitVec.ofNat 8 (len / 256), BitVec.ofNat 8 (len % 256)] := by
  have hhi : (BitVec.ofNat 16 len).extractLsb' 8 8 = BitVec.ofNat 8 (len / 256) := by
    apply BitVec.eq_of_toNat_eq
    simp [BitVec.extractLsb'_toNat, Nat.shiftRight_eq_div_pow, Nat.mod_eq_of_lt h]
  have hlo : (BitVec.ofNat 16 len).extractLsb' 0 8 = BitVec.ofNat 8 (len % 256) := by
    apply BitVec.eq_of_toNat_eq
    simp [BitVec.extractLsb'_toNat, Nat.mod_eq_of_lt h]
  rw [len16Bytes, hhi, hlo]

/-- WRAP's header as literal bytes around the length (R103). -/
theorem writeHeader_bytes (role : Role) {len : Nat} (h : len < 65536) :
    writeHeader role len =
      if len < 126 then [0x82#8, BitVec.ofNat 8 ((roleBit role).toNat * 128 + len)]
      else [0x82#8, headerByte1 (roleBit role) 126, BitVec.ofNat 8 (len / 256), BitVec.ofNat 8 (len % 256)] := by
  unfold writeHeader
  split
  · rw [headerByte1_ofNat _ (by omega)]
  · rw [len16Bytes_ofNat h]; rfl

/-! ## The frame WRAP builds, in both roles (R100, R104) -/

/-- The key a frame of the role carries, where `key` is the one drawn (R102). -/
def writtenKey (role : Role) (key : Key) : Option Key :=
  match role with
  | .masking => some key
  | .nonMasking => none

/-- The bytes of a frame's key, none for an unmasked frame (R61, R66). -/
def keySection : Option Key → Bytes
  | some key => keyBytes key
  | none => []

theorem keySection_writtenKey_length (role : Role) (key : Key) :
    (keySection (writtenKey role key)).length = if role = .masking then 4 else 0 := by
  cases role <;> rfl

/-- Masking a payload twice with the key of its frame gives it back (R91, R113). -/
@[simp] theorem maskIfKeyed_maskIfKeyed (key : Option Key) (x : Bytes) : maskIfKeyed key (maskIfKeyed key x) = x := by
  cases key with
  | none => rfl
  | some k => exact maskFrom_maskFrom k 0 x

/-- A frame is its two fixed bytes, the length extension, the key if there is one, and the payload under it (R61). -/
theorem buildFrame_fields (role : Role) (payload : Bytes) (key : Key) :
    buildFrame role payload key =
      headerByte0 1 0 2 :: headerByte1 (roleBit role) (writtenLen7 payload.length) ::
        (writtenExt payload.length ++
          (keySection (writtenKey role key) ++ maskIfKeyed (writtenKey role key) payload)) := by
  cases role <;> simp only [buildFrame, writeHeader_fields, List.cons_append, List.append_assoc] <;> rfl

/-- The size of a frame is that of its fields (R109). -/
theorem buildFrame_length (role : Role) (payload : Bytes) (key : Key) :
    (buildFrame role payload key).length =
      2 + (if payload.length < 126 then 0 else 2) + (if role = .masking then 4 else 0) + payload.length := by
  simp only [buildFrame_fields, List.length_cons, List.length_append, writtenExt_length,
    keySection_writtenKey_length, maskIfKeyed_length]
  omega

/-- Behind the length field stand the key, if there is one, and the payload under it (R104, R110). -/
theorem buildFrame_drop_length (role : Role) (payload : Bytes) (key : Key) :
    (buildFrame role payload key).drop (2 + (writtenExt payload.length).length) =
      keySection (writtenKey role key) ++ maskIfKeyed (writtenKey role key) payload := by
  rw [buildFrame_fields, ← List.drop_drop]
  exact List.drop_left

/-- Behind the whole header stands the payload, masked if the frame has a key (R67). -/
theorem buildFrame_drop_header (role : Role) (payload : Bytes) (key : Key) :
    (buildFrame role payload key).drop
        (2 + (writtenExt payload.length).length + (keySection (writtenKey role key)).length) =
      maskIfKeyed (writtenKey role key) payload := by
  rw [← List.drop_drop, buildFrame_drop_length, List.drop_left]

/-- Byte 1 of a frame (R103). -/
theorem buildFrame_byte1 (role : Role) (payload : Bytes) (key : Key) :
    (buildFrame role payload key).getD 1 0 = headerByte1 (roleBit role) (writtenLen7 payload.length) := by
  rw [buildFrame_fields]; rfl

/-- Bytes 2 and 3 of a frame with LEN7 = 126 hold the length, big-endian (R45, R109). -/
theorem buildFrame_len16 (role : Role) (payload : Bytes) (key : Key) (hlong : ¬ payload.length < 126)
    (hlen : payload.length < 65536) :
    ((buildFrame role payload key).getD 2 0).toNat * 256 + ((buildFrame role payload key).getD 3 0).toNat =
      payload.length := by
  rw [buildFrame_fields, writtenExt_long hlong, len16Bytes_ofNat hlen]
  simp only [List.cons_append, List.getD_cons_succ, List.getD_cons_zero, BitVec.toNat_ofNat]
  omega

/-! ## What WRAP does (R100, R101, R105, R106, R111) -/

/-- A draw gives the script's next key, or the free value where the script is empty (R106). -/
theorem State.nextKey_eq (s : State) : s.nextKey = s.keyScript.head?.getD (Config.keySource s.keyDraws) := by
  unfold State.nextKey; split <;> simp [*]

/-- A draw takes the script's next key off it, or, where it is empty, counts a free draw (R106). -/
theorem State.afterDraw_eq (s : State) :
    s.afterDraw = { s with keyScript := s.keyScript.tail,
                           keyDraws := if s.keyScript = [] then s.keyDraws + 1 else s.keyDraws } := by
  unfold State.afterDraw; split <;> simp [*]

/-- The last response is no part of a draw. -/
theorem State.afterDraw_respond (data : ResponseData) (status : Status) (s : State) :
    (s.respond data status).afterDraw = s.afterDraw.respond data status := by
  simp only [State.afterDraw_eq]; rfl

/-- What a successful WRAP leaves, its response aside: in the masking role the key is drawn and recorded (R105). -/
def State.afterWrap (s : State) : State :=
  match s.role with
  | .masking => s.afterDraw.recordTxKey s.nextKey
  | .nonMasking => s

theorem State.afterWrap_masking {s : State} (h : s.role = .masking) :
    s.afterWrap = s.afterDraw.recordTxKey s.nextKey := by
  simp only [State.afterWrap, h]

theorem State.afterWrap_nonMasking {s : State} (h : s.role = .nonMasking) : s.afterWrap = s := by
  simp only [State.afterWrap, h]

/-- WRAP of a supported length answers the frame for its ROLE and the key KEY_SOURCE gives next (R100, R108). -/
theorem exec_wrap_ok (payload : Bytes) (s : State) (hlen : payload.length < 65536) :
    exec (.wrap payload) s =
      .next (s.afterWrap.respond (.frame (some (buildFrame s.role payload s.nextKey))) .ok) := by
  simp only [exec, execWrap, if_neg (Nat.not_le.2 hlen), State.afterWrap]
  cases s.role <;> rfl

/-- WRAP of a longer payload answers its status only (R101). -/
theorem exec_wrap_tooLong (payload : Bytes) (s : State) (hlen : 65536 ≤ payload.length) :
    exec (.wrap payload) s = .next (s.respond (.frame none) .unsupportedLengthScheme) :=
  if_pos hlen

/-- WRAP reads no earlier response (R108). -/
theorem exec_wrap_respond (payload : Bytes) (data : ResponseData) (status : Status) (s : State) :
    exec (.wrap payload) (s.respond data status) = exec (.wrap payload) s := by
  simp only [exec, execWrap, State.respond_respond, State.respond_role, State.afterDraw_respond]
  rfl

/-- Settles O7: without a key the frame is the header's bytes and the payload. -/
theorem wrapUnmaskedFrame : Obligations.WrapUnmaskedFrame := by
  intro payload s hrole hlen
  have hhdr := writeHeader_bytes .nonMasking hlen
  rw [show (roleBit .nonMasking).toNat * 128 + payload.length = payload.length from Nat.zero_add _] at hhdr
  have hexec := exec_wrap_ok payload s hlen
  rw [State.afterWrap_nonMasking hrole, hrole, buildFrame, hhdr] at hexec
  exact hexec

/-- Settles O8: the draw's key stands behind the header's bytes and is the pad of the payload. -/
theorem wrapMaskedFrame : Obligations.WrapMaskedFrame := by
  intro payload s hrole hlen
  refine ⟨s.nextKey, maskApply payload s.nextKey, s.nextKey_eq, ?_, maskApply_length payload s.nextKey,
    fun i hi => ?_⟩
  · have hexec := exec_wrap_ok payload s hlen
    rw [State.afterWrap_masking hrole, hrole, buildFrame, writeHeader_bytes _ hlen, State.afterDraw_eq] at hexec
    exact hexec
  · rw [maskApply_getElem?, List.getElem?_eq_getElem hi]
    rfl

/-- Settles O10: the frame's fields give its size, and the length fields are where R61 puts them. -/
theorem wrapFrameSizes : Obligations.WrapFrameSizes := by
  intro payload s hlen
  refine ⟨_, _, exec_wrap_ok payload s hlen, rfl, fun hshort => ⟨?_, ?_⟩, fun hlong => ?_⟩
  · rw [buildFrame_length, if_pos hshort]
  · rw [buildFrame_byte1, headerByte1_toNat_mod, writtenLen7_short hshort, BitVec.toNat_ofNat]
    omega
  · have hlong := Nat.not_lt.2 hlong
    refine ⟨?_, ?_, buildFrame_len16 _ payload _ hlong hlen⟩
    · rw [buildFrame_length, if_neg hlong]
    · rw [buildFrame_byte1, headerByte1_toNat_mod, writtenLen7_long hlong]
      rfl

/-- Settles O11: byte 1 bit 7 is ROLE, and behind the length field stand the key, if the role writes one, and the
payload. -/
theorem wrapRoleDecidesMaskBitAndKey : Obligations.WrapRoleDecidesMaskBitAndKey := by
  intro payload s hlen
  have hsize : (if payload.length < 126 then 2 else 4) = 2 + (writtenExt payload.length).length := by
    rw [writtenExt_length]; split <;> rfl
  refine ⟨_, _, exec_wrap_ok payload s hlen, rfl, fun hrole => ?_, fun hrole => ?_⟩
  all_goals rw [hrole, buildFrame_byte1, headerByte1_bit7, hsize, buildFrame_drop_length]
  · refine ⟨rfl, s.nextKey, ?_, List.prefix_append _ _⟩
    rw [State.afterWrap_masking hrole]
    rfl
  · exact ⟨rfl, rfl⟩

/-- Settles O9: the failed WRAP writes the response alone, and no WRAP reads it. -/
theorem wrapTooLongWritesNothing : Obligations.WrapTooLongWritesNothing := by
  intro payload s hlen
  exact ⟨_, rfl, exec_wrap_tooLong payload s hlen, fun later => exec_wrap_respond later _ _ s⟩

/-- Settles O12: the response of WRAP is a function of the payload, ROLE and the draw, and WRAP's frame leaves out the
receiver's registers. -/
theorem wrapIgnoresTheReceiver : Obligations.WrapIgnoresTheReceiver := by
  intro payload s s' hrole hkey
  by_cases hlen : payload.length < 65536
  case neg =>
    have hlong := Nat.not_lt.1 hlen
    exact ⟨_, _, exec_wrap_tooLong payload s hlong, exec_wrap_tooLong payload s' hlong, rfl,
      fun _ h => absurd h hlen, rfl, rfl, rfl, rfl, rfl⟩
  have hframe := execWrap_frame payload s _ (exec_wrap_ok payload s hlen)
  refine ⟨_, _, exec_wrap_ok payload s hlen, exec_wrap_ok payload s' hlen, ?_, fun hm _ => ?_,
    (congrArg State.rxbuf hframe :), (congrArg State.rxFault hframe :), (congrArg State.lastRxLen hframe :),
    (congrArg State.lastRxKey hframe :), (congrArg State.role hframe :)⟩
  · rw [State.respond_response, State.respond_response, hrole, hkey]
  · rw [State.afterWrap_masking hm, State.afterWrap_masking (hrole ▸ hm), hkey]
    rfl

/-! ## A frame of one role at a receiver (R113, R127, R145) -/

/-- A frame of one role, parsed in the other, is PARSED with the length and the key it was built with (R113). -/
theorem parse_buildFrame_other {role other : Role} (hne : other ≠ role) (payload : Bytes) (key : Key)
    (hlen : payload.length < 65536) :
    parse (buildFrame role payload key) other =
      .parsed (2 + (writtenExt payload.length).length + (keySection (writtenKey role key)).length)
        (BitVec.ofNat 64 payload.length) (writtenKey role key) := by
  rw [buildFrame_fields]
  by_cases hshort : payload.length < 126
  · have hn : (BitVec.ofNat 7 payload.length).setWidth 64 = BitVec.ofNat 64 payload.length :=
      BitVec.setWidth_ofNat_of_le_of_lt (by decide) (by omega)
    have hle : (BitVec.ofNat 7 payload.length).toNat ≤ 125 := by rw [BitVec.toNat_ofNat]; omega
    rw [writtenLen7_short hshort, writtenExt_short hshort, ← hn]
    cases role <;> cases other
    case nonMasking.nonMasking | masking.masking => exact absurd rfl hne
    case nonMasking.masking => exact (parse_short 0 _ _ .masking hle).trans (parseKeyed_unmasked ..)
    case masking.nonMasking =>
      have hparse := (parse_short 0 _ (keyBytes key ++ maskApply payload key) .nonMasking hle).trans
        (parseKeyed_masked ..)
      rw [keyField_short] at hparse
      exact hparse
  · have hn : (BitVec.ofNat 16 payload.length).setWidth 64 = BitVec.ofNat 64 payload.length :=
      BitVec.setWidth_ofNat_of_le_of_lt (by decide) hlen
    rw [writtenLen7_long hshort, writtenExt_long hshort, ← hn]
    cases role <;> cases other
    case nonMasking.nonMasking | masking.masking => exact absurd rfl hne
    case nonMasking.masking => exact (parse_len16Bytes 0 _ .masking _).trans (parseKeyed_unmasked ..)
    case masking.nonMasking =>
      have hparse := (parse_len16Bytes 0 (keyBytes key ++ maskApply payload key) .nonMasking
        (BitVec.ofNat 16 payload.length)).trans (parseKeyed_masked ..)
      rw [keyField_ext16] at hparse
      exact hparse

/-- A frame of a role, parsed in the same role, has the wrong MASK bit (R127). -/
theorem parse_buildFrame_same (role : Role) (payload : Bytes) (key : Key) :
    parse (buildFrame role payload key) role = .invalid .maskMismatch := by
  rw [buildFrame_fields, parse_fields]
  cases role <;> rfl

/-- With RXBUF empty the loop waits at once (R147). -/
theorem drain_empty (k : Nat) (s : State) (out : List Bytes) (h : s.rxbuf = []) :
    drain (k + 1) s out = .ok (s, out, .ok) := by
  rw [drain, h]; rfl

/-- The pass takes out a frame that RX_BUF_CAP allows and that is wholly in RXBUF (R144, R145). -/
theorem runPass_whole (h : Nat) (n : Len64) (key : Option Key) (s : State) (out : List Bytes)
    (hc : h + n.toNat ≤ s.params.rxBufCap) (hle : h + n.toNat ≤ s.rxbuf.length) :
    runPass (.parsed h n key) s out = extractFrame h n.toNat key (s.recordParsed n key) out := by
  rw [runPass, passParsed, if_neg (Nat.not_lt.2 hc), if_neg (Nat.not_lt.2 hle)]

/-- SUBMIT of one whole frame to an empty receiver takes it out, whatever the drain policy: its payload is the answer,
and nothing is left (R145, R146). -/
theorem execSubmit_wholeFrame (w : Bytes) (s : State) (h : Nat) (n : Len64) (key : Option Key) (hf : s.rxFault = none)
    (hbuf : s.rxbuf = []) (hc : w.length ≤ s.params.rxBufCap) (hp : parse w s.role = .parsed h n key)
    (hsize : w.length = h + n.toNat) :
    execSubmit w s =
      .next (((s.setRxbuf []).recordParsed n key).respond (.payloads [maskIfKeyed key (w.drop h)]) .ok) := by
  have happ : s.rxbuf ++ w = w := by rw [hbuf, List.nil_append]
  have hfit : s.rxbuf.length + w.length ≤ s.params.rxBufCap := by simpa [hbuf] using hc
  have htake : (w.drop h).take n.toNat = w.drop h := List.take_of_length_le (by rw [List.length_drop]; omega)
  have hdrop : w.drop (h + n.toNat) = [] := List.drop_of_length_le (by omega)
  have hpass : runPass (parse w s.role) (s.setRxbuf w) [] =
      extractFrame h n.toNat key ((s.setRxbuf w).recordParsed n key) [] := by
    rw [hp]
    exact runPass_whole h n key (s.setRxbuf w) [] (hsize ▸ hc) hsize.ge
  rw [extractFrame_ok _ _ _ _ _ hsize.ge] at hpass
  simp only [State.recordParsed_rxbuf, State.setRxbuf_rxbuf, htake, hdrop, State.recordParsed_params,
    State.setRxbuf_params, List.nil_append] at hpass
  refine execSubmit_fits w s 2 ((s.setRxbuf []).recordParsed n key, [maskIfKeyed key (w.drop h)], .ok) hf hfit ?_
  rw [happ, drain, State.setRxbuf_rxbuf, State.setRxbuf_role, hpass]
  cases s.params.drainPolicy with
  | one => rfl
  | all => exact drain_empty 0 ((s.setRxbuf []).recordParsed n key) _ rfl

/-- SUBMIT to an empty receiver of bytes with an INVALID front latches the reason and gives no payload (R143). -/
theorem execSubmit_invalidFrame (w : Bytes) (s : State) (reason : FramingReason) (hf : s.rxFault = none)
    (hbuf : s.rxbuf = []) (hc : w.length ≤ s.params.rxBufCap) (hp : parse w s.role = .invalid reason) :
    execSubmit w s = .next (((s.setRxbuf w).latch (.framing reason)).respond (.payloads []) reason.status) := by
  have happ : s.rxbuf ++ w = w := by rw [hbuf, List.nil_append]
  have hfit : s.rxbuf.length + w.length ≤ s.params.rxBufCap := by simpa [hbuf] using hc
  refine execSubmit_of_done w s _ [] _ hf hfit ?_
  rw [happ, hp]
  rfl

/-- Settles O14: the other role parses the frame with the length and the key it was built with, so that its bytes
behind the header are the payload under the same pad; the same role finds the wrong MASK bit. -/
theorem wrapThenSubmitGivesThePayload : Obligations.WrapThenSubmitGivesThePayload := by
  intro payload a b hlen hf hbuf
  refine ⟨_, _, exec_wrap_ok payload a hlen, rfl, fun hc => ⟨fun hne => ?_, fun hrole => ?_⟩⟩
  · have hp := parse_buildFrame_other hne payload a.nextKey hlen
    have hn : (BitVec.ofNat 64 payload.length : Len64).toNat = payload.length := by
      rw [BitVec.toNat_ofNat]; omega
    refine ⟨_, execSubmit_wholeFrame _ b _ _ _ hf hbuf hc hp ?_, ?_, rfl, hf⟩
    · rw [buildFrame_length, hn, writtenExt_length, keySection_writtenKey_length]
    · rw [buildFrame_drop_header, maskIfKeyed_maskIfKeyed]
      rfl
  · refine ⟨_, execSubmit_invalidFrame _ b .maskMismatch hf hbuf hc ?_, rfl⟩
    rw [hrole]
    exact parse_buildFrame_same ..

end Sys2Proof.Machine

/-! ## Parse by bytes 0 and 1 (R120, R121, R124-R130) -/

namespace Sys2Proof.Machine

/-- Bit 7 of a byte, as a one-bit field (R12). -/
theorem extractLsb'_bit7 (b : Byte) : b.extractLsb' 7 1 = BitVec.ofBool (b.getLsbD 7) := by
  ext i hi
  obtain rfl := Nat.lt_one_iff.1 hi
  simp

-- what each check of R121 asks of the byte that holds its field
section Fields
variable (b0 b1 : Byte) (rest : Bytes)

theorem finField_bytes : finField (b0 :: rest) = BitVec.ofBool (b0.getLsbD 7) := extractLsb'_bit7 b0

theorem finField_eq_zero_iff : finField (b0 :: rest) = 0 ↔ b0.getLsbD 7 = false := by
  rw [finField_bytes]
  cases b0.getLsbD 7 <;> decide

theorem opcodeField_toNat : (opcodeField (b0 :: rest)).toNat = b0.toNat % 16 := BitVec.extractLsb'_toNat ..

theorem opcodeField_eq_two_iff : opcodeField (b0 :: rest) = 2 ↔ b0.toNat % 16 = 2 := by
  rw [BitVec.toNat_eq, opcodeField_toNat]
  rfl

theorem maskField_bytes : maskField (b0 :: b1 :: rest) = BitVec.ofBool (b1.getLsbD 7) := extractLsb'_bit7 b1

theorem maskField_eq_expectedMask_iff (role : Role) :
    maskField (b0 :: b1 :: rest) = expectedMask role ↔ b1.getLsbD 7 = decide (role = .nonMasking) := by
  rw [maskField_bytes]
  cases role <;> cases b1.getLsbD 7 <;> decide

theorem len7Field_toNat : (len7Field (b0 :: b1 :: rest)).toNat = b1.toNat % 128 := BitVec.extractLsb'_toNat ..

theorem len7Field_eq_iff (k : BitVec 7) : len7Field (b0 :: b1 :: rest) = k ↔ b1.toNat % 128 = k.toNat := by
  rw [BitVec.toNat_eq, len7Field_toNat]

/-- LEN7 as the declared length of a short header (R129). -/
theorem len7Field_setWidth : (len7Field (b0 :: b1 :: rest)).setWidth 64 = BitVec.ofNat 64 (b1.toNat % 128) := by
  rw [← len7Field_toNat b0 b1 rest, BitVec.ofNat_toNat]

/-- LEN16 is big-endian (R45, R129). -/
theorem joinLen16_setWidth (b2 b3 : Byte) :
    (joinLen16 b2 b3).setWidth 64 = BitVec.ofNat 64 (b2.toNat * 256 + b3.toNat) := by
  have hjoin : (joinLen16 b2 b3).toNat = b2.toNat * 256 + b3.toNat := by
    rw [joinLen16, BitVec.toNat_append, ← Nat.shiftLeft_add_eq_or_of_lt b3.isLt, Nat.shiftLeft_eq]
  rw [← hjoin, BitVec.ofNat_toNat]

/-- The header length that byte 1 gives: `h` of R129 and R134. -/
def headerSize : Nat := 2 + (if b1.toNat % 128 = 126 then 2 else 0) + (if b1.getLsbD 7 then 4 else 0)

/-- R129, R130: what Parse answers once byte 0 and the MASK bit are accepted and LEN7 is not 127. -/
def headerOutcome : ParseOutcome :=
  if rest.length + 2 < headerSize b1 then .incomplete
  else .parsed (headerSize b1)
    (if b1.toNat % 128 = 126 then BitVec.ofNat 64 ((byteAt rest 0).toNat * 256 + (byteAt rest 1).toNat)
      else BitVec.ofNat 64 (b1.toNat % 128))
    (if b1.getLsbD 7 then some (keyField (b0 :: b1 :: rest) (if b1.toNat % 128 = 126 then 2 else 0)) else none)

/-- parseKeyed by the bytes of a window: R63's header length, and a key where MASK is set. -/
theorem parseKeyed_bytes (ext : Nat) (n : Len64) :
    parseKeyed (b0 :: b1 :: rest) ext n =
      if rest.length + 2 < 2 + ext + (if b1.getLsbD 7 then 4 else 0) then .incomplete
      else .parsed (2 + ext + if b1.getLsbD 7 then 4 else 0) n
        (if b1.getLsbD 7 then some (keyField (b0 :: b1 :: rest) ext) else none) := by
  rw [parseKeyed, maskField_bytes]
  cases b1.getLsbD 7 <;> rfl

/-- The end of R120 is headerOutcome: a window without its LEN16 is shorter than its header, so that one comparison
decides INCOMPLETE. -/
theorem headerOutcome_eq :
    (if len7Field (b0 :: b1 :: rest) = 126 then
      if (b0 :: b1 :: rest).length < 4 then .incomplete
      else parseKeyed (b0 :: b1 :: rest) 2 (len16Field (b0 :: b1 :: rest))
    else parseKeyed (b0 :: b1 :: rest) 0 ((len7Field (b0 :: b1 :: rest)).setWidth 64)) = headerOutcome b0 b1 rest := by
  have hlen16 : len16Field (b0 :: b1 :: rest) = _ := joinLen16_setWidth (byteAt rest 0) (byteAt rest 1)
  rw [hlen16, len7Field_setWidth, parseKeyed_bytes, parseKeyed_bytes]
  by_cases hext : b1.toNat % 128 = 126
  · rw [if_pos ((len7Field_eq_iff ..).2 hext)]
    simp only [headerOutcome, headerSize, if_pos hext]
    by_cases hshort : (b0 :: b1 :: rest).length < 4
    · have hheader : rest.length + 2 < 2 + 2 + (if b1.getLsbD 7 then 4 else 0) := Nat.lt_add_right _ hshort
      rw [if_pos hshort, if_pos hheader]
    · rw [if_neg hshort]
  · rw [if_neg (mt (len7Field_eq_iff ..).1 hext)]
    simp only [headerOutcome, headerSize, if_neg hext]

/-- Parse of a window of two bytes or more, its checks on bytes 0 and 1 in the order of R121. -/
theorem parse_bytes (role : Role) :
    parse (b0 :: b1 :: rest) role =
      if b0.getLsbD 7 = false then .invalid .finClear
      else if b0.toNat % 16 ≠ 2 then .invalid .badOpcode
      else if b1.getLsbD 7 ≠ decide (role = .nonMasking) then .invalid .maskMismatch
      else if b1.toNat % 128 = 127 then .unsupportedLength
      else headerOutcome b0 b1 rest := by
  rw [parse, headerOutcome_eq, if_neg (by simp)]
  simp only [finField_eq_zero_iff, opcodeField_eq_two_iff, maskField_eq_expectedMask_iff, len7Field_eq_iff, ne_eq]
  rfl

end Fields

/-- Bytes 0 and 1 pass every check on them (R125-R128). -/
structure AcceptedBytes (role : Role) (b0 b1 : Byte) : Prop where
  fin : b0.getLsbD 7 = true
  opcode : b0.toNat % 16 = 2
  mask : b1.getLsbD 7 = decide (role = .nonMasking)
  len7 : b1.toNat % 128 ≠ 127

/-- Of an accepted header Parse answers its length and key, or INCOMPLETE before its last byte (R129, R130). -/
theorem AcceptedBytes.parse_eq {role : Role} {b0 b1 : Byte} (ha : AcceptedBytes role b0 b1) (rest : Bytes) :
    parse (b0 :: b1 :: rest) role = headerOutcome b0 b1 rest := by
  rw [parse_bytes, if_neg (by simp [ha.fin]), if_neg (not_not.2 ha.opcode), if_neg (not_not.2 ha.mask),
    if_neg ha.len7]

/-- Bytes 0 and 1 are accepted, or they alone decide the verdict (R125-R128). -/
theorem acceptedBytes_or_rejected (role : Role) (b0 b1 : Byte) (rest : Bytes) :
    AcceptedBytes role b0 b1 ∨ (∃ reason, parse (b0 :: b1 :: rest) role = .invalid reason) ∨
      parse (b0 :: b1 :: rest) role = .unsupportedLength := by
  rw [parse_bytes]
  split_ifs with hfin hop hmask hlen7
  · exact .inr (.inl ⟨_, rfl⟩)
  · exact .inr (.inl ⟨_, rfl⟩)
  · exact .inr (.inl ⟨_, rfl⟩)
  · exact .inr (.inr rfl)
  · exact .inl ⟨Bool.eq_true_of_not_eq_false hfin, not_not.1 hop, not_not.1 hmask, hlen7⟩

theorem headerOutcome_incomplete_iff (b0 b1 : Byte) (rest : Bytes) :
    headerOutcome b0 b1 rest = .incomplete ↔ rest.length + 2 < headerSize b1 := by
  rw [headerOutcome, ite_eq_left_iff]
  simp

theorem headerOutcome_parsed (b0 b1 : Byte) (rest : Bytes) (h : Nat) (n : Len64) (key : Option Key)
    (hp : headerOutcome b0 b1 rest = .parsed h n key) : h = headerSize b1 := by
  unfold headerOutcome at hp
  split at hp
  · cases hp
  · cases hp; rfl

/-- An INCOMPLETE window of two bytes or more has accepted bytes 0 and 1 and is shorter than its header (R134). -/
theorem parse_incomplete (role : Role) (b0 b1 : Byte) (rest : Bytes)
    (hp : parse (b0 :: b1 :: rest) role = .incomplete) :
    AcceptedBytes role b0 b1 ∧ rest.length + 2 < headerSize b1 := by
  obtain ha | ⟨reason, hr⟩ | hu := acceptedBytes_or_rejected role b0 b1 rest
  · exact ⟨ha, (headerOutcome_incomplete_iff ..).1 ((ha.parse_eq rest).symm.trans hp)⟩
  · exact nomatch hr.symm.trans hp
  · exact nomatch hu.symm.trans hp

/-- A PARSED window's header length is the one its byte 1 gives (R129). -/
theorem parse_parsed_headerSize (role : Role) (b0 b1 : Byte) (rest : Bytes) (h : Nat) (n : Len64) (key : Option Key)
    (hp : parse (b0 :: b1 :: rest) role = .parsed h n key) : h = headerSize b1 := by
  obtain ha | ⟨reason, hr⟩ | hu := acceptedBytes_or_rejected role b0 b1 rest
  · exact headerOutcome_parsed _ _ _ _ _ _ ((ha.parse_eq rest).symm.trans hp)
  · exact nomatch hr.symm.trans hp
  · exact nomatch hu.symm.trans hp

/-- No header is longer than eight bytes (R132). -/
theorem headerSize_le (b1 : Byte) : headerSize b1 ≤ 8 := by
  unfold headerSize
  split <;> split <;> omega

/-- A window of eight bytes or more is not INCOMPLETE (R134). -/
theorem length_lt_of_parse_incomplete (role : Role) (w : Bytes) (hp : parse w role = .incomplete) : w.length < 8 := by
  match w, hp with
  | [], _ | [_], _ => simp
  | b0 :: b1 :: rest, hp =>
    exact (parse_incomplete role b0 b1 rest hp).2.trans_le (headerSize_le b1)

/-- A front of the window with a verdict has the whole window's verdict (R133). -/
theorem parse_take (role : Role) (w : Bytes) (j : Nat) (h : parse (w.take j) role ≠ .incomplete) :
    parse (w.take j) role = parse w role := by
  rw [← parse_append _ (w.drop j) _ h, List.take_append_drop]

/-- The header's own bytes are enough for its outcome (R132). -/
theorem parse_take_header (role : Role) (w : Bytes) (h : Nat) (n : Len64) (key : Option Key)
    (hp : parse w role = .parsed h n key) : parse (w.take h) role = .parsed h n key := by
  obtain ⟨h2, -, hle, -⟩ := parse_parsed_bounds w role h n key hp
  refine (parse_take role w h fun hinc => ?_).trans hp
  match w, h with
  | b0 :: b1 :: rest, k + 2 =>
    have hsize := parse_parsed_headerSize role b0 b1 rest _ n key hp
    have hshort := (parse_incomplete role b0 b1 (rest.take k) hinc).2
    rw [List.length_take] at hshort
    simp only [List.length_cons] at hle
    omega

/-- Eight bytes are enough for every outcome (R132). -/
theorem parse_take_eight (role : Role) (w : Bytes) : parse (w.take 8) role = parse w role := by
  by_cases hinc : parse (w.take 8) role = .incomplete
  · have hlen := length_lt_of_parse_incomplete role _ hinc
    rw [List.length_take] at hlen
    rw [List.take_of_length_le (by omega)]
  · exact parse_take role w 8 hinc

/-! ## What Parse and PARSE_HEADER answer (R120-R135) -/

/-- Settles O16: each verdict is one branch of the checks on bytes 0 and 1. -/
theorem parseVerdictsOfTheFirstTwoBytes : Obligations.ParseVerdictsOfTheFirstTwoBytes := by
  refine fun role => ⟨rfl, fun _ => rfl, fun b0 b1 rest => ?_⟩
  rw [parse_bytes]
  refine ⟨fun hfin => if_pos hfin, fun hfin hop => ?_, fun hfin hop hmask => ?_, fun hfin hop hmask hlen7 => ?_⟩
  all_goals rw [if_neg (by simp [hfin])]
  · exact if_pos hop
  · rw [if_neg (not_not.2 hop), if_pos hmask]
  · rw [if_neg (not_not.2 hop), if_neg (not_not.2 hmask), if_pos hlen7]

/-- Settles O17: the header is accepted, LEN7 and MASK fix its size, and the window's length decides the rest. -/
theorem parseReadsLengthAndKey : Obligations.ParseReadsLengthAndKey := by
  intro b0 b1 rest hfin hop
  have hnm (hmask : b1.getLsbD 7 = true) (hlen7 : b1.toNat % 128 ≠ 127) :
      parse (b0 :: b1 :: rest) .nonMasking = headerOutcome b0 b1 rest :=
    AcceptedBytes.parse_eq ⟨hfin, hop, hmask, hlen7⟩ rest
  have hm (hmask : b1.getLsbD 7 = false) (hlen7 : b1.toNat % 128 ≠ 127) :
      parse (b0 :: b1 :: rest) .masking = headerOutcome b0 b1 rest :=
    AcceptedBytes.parse_eq ⟨hfin, hop, hmask, hlen7⟩ rest
  refine ⟨fun hmask hext => ?_, fun hmask hshort => ?_, fun hmask hext => ?_, fun hmask hshort => ?_⟩
  · have hparse := hnm hmask (by omega)
    simp only [headerOutcome, headerSize, hmask, hext, if_true] at hparse
    match rest with
    | [] | [_] | [_, _] | [_, _, _] | [_, _, _, _] | [_, _, _, _, _] | l1 :: l0 :: k0 :: k1 :: k2 :: k3 :: _ =>
      exact hparse
  · have hparse := hnm hmask (by omega)
    simp only [headerOutcome, headerSize, hmask, if_neg (show b1.toNat % 128 ≠ 126 by omega), if_true] at hparse
    match rest with
    | [] | [_] | [_, _] | [_, _, _] | k0 :: k1 :: k2 :: k3 :: _ => exact hparse
  · have hparse := hm hmask (by omega)
    simp only [headerOutcome, headerSize, hmask, hext, if_true] at hparse
    match rest with
    | [] | [_] | l1 :: l0 :: _ => exact hparse
  · have hparse := hm hmask (by omega)
    simp only [headerOutcome, headerSize, hmask, if_neg (show b1.toNat % 128 ≠ 126 by omega)] at hparse
    exact hparse

/-- Settles O18: of byte 0 Parse reads FIN and OPCODE only. -/
theorem parseIgnoresRsv : Obligations.ParseIgnoresRsv := by
  intro role b0 c0 rest hfin hop
  have hfin' : finField (b0 :: rest) = finField (c0 :: rest) := by rw [finField_bytes, finField_bytes, hfin]
  have hop' : opcodeField (b0 :: rest) = opcodeField (c0 :: rest) :=
    BitVec.eq_of_toNat_eq (by rw [opcodeField_toNat, opcodeField_toNat, hop])
  rw [parse, hfin', hop']
  rfl

/-- Settles O19: eight bytes decide every outcome, and the header's own bytes a PARSED one. -/
theorem parseReadsOnlyTheHeader : Obligations.ParseReadsOnlyTheHeader := by
  refine fun role w => ⟨fun w' htake => ?_, fun h n key hp => ⟨?_, fun x => ?_⟩⟩
  · rw [← parse_take_eight, htake, parse_take_eight]
  · exact (parse_parsed_bounds w role h n key hp).2.1
  · have hhead := parse_take_header role w h n key hp
    rw [parse_append _ x _ (by simp [hhead]), hhead]

/-- Settles O20: both directions say that more bytes keep a verdict. -/
theorem parseVerdictIsStable : Obligations.ParseVerdictIsStable := by
  refine fun role w => ⟨fun hp x => parse_append w x role hp, fun hp j => ?_⟩
  by_contra hverdict
  exact hverdict ((parse_take role w j hverdict).trans hp)

/-- Settles O21: the checks an INCOMPLETE window has passed are R125-R128's, and its header is not all there. -/
theorem incompleteIsBounded : Obligations.IncompleteIsBounded := by
  refine fun role w hp => ⟨length_lt_of_parse_incomplete role w hp, ?_⟩
  rintro b0 b1 rest rfl
  obtain ⟨⟨hfin, hop, hmask, hlen7⟩, hshort⟩ := parse_incomplete role b0 b1 rest hp
  exact ⟨hfin, hop, hmask, hlen7, hshort⟩

/-- Settles O15: PARSE_HEADER gives the response and nothing else, and each outcome's status is R135's. -/
theorem parseHeaderReportsAndWritesNothing : Obligations.ParseHeaderReportsAndWritesNothing := by
  intro w s
  refine ⟨parse w s.role, (parse w s.role).status, rfl, rfl, ?_⟩
  cases parse w s.role with
  | invalid reason => cases reason <;> rfl
  | incomplete | unsupportedLength | parsed => rfl

end Sys2Proof.Machine

/-! ## SUBMIT by the first pass of its loop (R140, R142, R143, R144, R147, R148, R149) -/

namespace Sys2Proof.Machine

/-- While RX_FAULT is latched a header runs no pass (R142, log 8). -/
theorem receiveHeader_latched (r : ParseOutcome) (s : State) (c : RxFault) (hf : s.rxFault = some c) :
    receiveHeader r s = .next (latchedAnswer c s) := by
  simp only [receiveHeader, hf]

/-- Settles O29: SUBMIT and every header give R142's answer, and each latched code has the status of its name. -/
theorem latchedReceiverChangesNothing : Obligations.LatchedReceiverChangesNothing := by
  intro s c i hf hi
  have hexec : exec i s = .next (latchedAnswer c s) := by
    obtain hheader | ⟨chunk, rfl⟩ := hi
    · obtain ⟨r, hr⟩ := exec_header i hheader
      exact (hr s).trans (receiveHeader_latched r s c hf)
    · exact execSubmit_latched chunk s c hf
  rw [hexec]
  match c with
  | .framing .finClear | .framing .badOpcode | .framing .maskMismatch | .payloadTooLarge => rfl

/-- Settles O31: the append capacity check comes before the loop. -/
theorem submitOverflowLatches : Obligations.SubmitOverflowLatches :=
  fun s chunk hf hc => execSubmit_overflow chunk s hf hc

/-- The pass latches a frame that RX_BUF_CAP does not allow (R144). -/
theorem runPass_tooLarge (h : Nat) (n : Len64) (key : Option Key) (s : State) (out : List Bytes)
    (hc : s.params.rxBufCap < h + n.toNat) :
    runPass (.parsed h n key) s out =
      .ok (.done ((s.recordParsed n key).latch .payloadTooLarge) out .payloadTooLarge) := by
  rw [runPass, passParsed, if_pos hc]

/-- The pass waits for a frame that RX_BUF_CAP allows and that is not all there (R144, R147). -/
theorem runPass_waits (h : Nat) (n : Len64) (key : Option Key) (s : State) (out : List Bytes)
    (hc : h + n.toNat ≤ s.params.rxBufCap) (hlt : s.rxbuf.length < h + n.toNat) :
    runPass (.parsed h n key) s out = .ok (.done (s.recordParsed n key) out .ok) := by
  rw [runPass, passParsed, if_neg (Nat.not_lt.2 hc), if_pos hlt]

/-- Settles O32: the pass on an INVALID front latches its reason. -/
theorem submitInvalidFrontLatches : Obligations.SubmitInvalidFrontLatches := by
  intro s chunk reason hf hc hp
  have hsubmit : execSubmit chunk s =
      .next (((s.setRxbuf (s.rxbuf ++ chunk)).latch (.framing reason)).respond (.payloads []) reason.status) :=
    execSubmit_of_done chunk s _ _ _ hf hc (by rw [hp]; rfl)
  cases reason <;> exact hsubmit

/-- Settles O33: the pass writes nothing, so the front stays blocked for every later chunk, until one overflows. -/
theorem submitExt64BlocksUntilOverflow : Obligations.SubmitExt64BlocksUntilOverflow := by
  intro s chunk hf hc hp
  have hsubmit : execSubmit chunk s =
      .next ((s.setRxbuf (s.rxbuf ++ chunk)).respond (.payloads []) .unsupportedLengthScheme) :=
    execSubmit_of_done chunk s _ _ _ hf hc (by rw [hp]; rfl)
  refine ⟨_, hsubmit, rfl, fun later => ⟨fun hfit => ?_, fun hover => execSubmit_overflow later _ hf hover⟩⟩
  exact execSubmit_blocked later _ (State.phase_blockedLength_iff _ |>.2 ⟨hf, hp⟩) hfit

/-- Settles O34: the pass waits on an INCOMPLETE front, and on a PARSED one whose frame is not all there. -/
theorem submitWaitsForMoreBytes : Obligations.SubmitWaitsForMoreBytes := by
  refine fun s chunk hf hc => ⟨fun hp => ?_, fun h n key hp hfit hlt => ?_⟩
  · exact execSubmit_of_done chunk s (s.setRxbuf (s.rxbuf ++ chunk)) [] .ok hf hc (by rw [hp]; rfl)
  · refine execSubmit_of_done chunk s ((s.setRxbuf (s.rxbuf ++ chunk)).recordParsed n key) [] .ok hf hc ?_
    rw [hp]
    exact runPass_waits h n key _ _ hfit hlt

/-- Settles O35: the declared-size check is the pass's first on a PARSED front. -/
theorem submitDeclaredTooLargeLatches : Obligations.SubmitDeclaredTooLargeLatches := by
  intro s chunk h n key hf hc hp hlarge
  refine execSubmit_of_done chunk s (((s.setRxbuf (s.rxbuf ++ chunk)).recordParsed n key).latch .payloadTooLarge) []
    .payloadTooLarge hf hc ?_
  rw [hp]
  exact runPass_tooLarge h n key _ _ hlarge

/-- Settles O36: the first pass extracts the frame; under ONE it is the last, and under ALL the loop goes on as an
empty SUBMIT would. -/
theorem submitExtractsThenGoesOn : Obligations.SubmitExtractsThenGoesOn := by
  intro s chunk h n key hf hc hp hle
  have hfit : h + n.toNat ≤ s.params.rxBufCap := by rw [List.length_append] at hle; omega
  have hpass := runPass_whole h n key (s.setRxbuf (s.rxbuf ++ chunk)) [] hfit hle
  rw [← hp, extractFrame_ok _ _ _ _ _ hle, State.recordParsed_params, State.setRxbuf_params] at hpass
  refine ⟨_, _, rfl, rfl, fun hone => ?_, fun hall => ?_⟩
  · rw [hone] at hpass
    exact execSubmit_of_done chunk s _ _ _ hf hc hpass
  · rw [hall] at hpass
    obtain ⟨u, qs, st, hempty, hsubmit⟩ := execSubmit_of_again chunk s _ _ hf hc hpass
    exact ⟨_, qs, st, hempty, rfl, hsubmit⟩

/-! ## An empty chunk (R155) -/

/-- Under ALL a receiver that meets the invariant, with no fault latched, is at rest (R28, R29, R144). -/
theorem State.Inv.rests {s : State} (hs : s.Inv) (hall : s.params.drainPolicy = .all) (hf : s.rxFault = none) :
    ∃ st, s.Rests st := by
  cases hp : parse s.rxbuf s.role with
  | incomplete => exact ⟨_, .incomplete hf hp⟩
  | invalid reason => exact absurd hp (hs.framed hall hf reason)
  | unsupportedLength => exact ⟨_, .blocked hf hp⟩
  | parsed h n key =>
    obtain ⟨hlen, hkey, hfit⟩ := hs.observed hall hf h n key hp
    have hlt : s.rxbuf.length < h + n.toNat := by
      by_contra hge
      exact hs.drained hall (by simp only [State.phase, hf, hp, if_neg hge])
    exact ⟨_, .waits hf h n key hp hfit hlt hlen hkey⟩

/-- Recording what the diagnostic registers show changes nothing. -/
theorem State.recordParsed_self {s : State} {n : Len64} {key : Option Key} (hlen : s.lastRxLen = some n)
    (hkey : s.lastRxKey = key) : s.recordParsed n key = s := by
  rw [State.recordParsed, ← hlen, ← hkey]

/-- SUBMIT of the empty chunk to a receiver at rest repeats its status and changes nothing (R142, R147, R148). -/
theorem execSubmit_nil_of_rests {s : State} {st : Status} (h : s.Rests st) (hfits : s.bufferFits) :
    execSubmit [] s = .next (s.respond (.payloads []) st) := by
  have of_pass {st' : Status} (hf : s.rxFault = none)
      (hp : runPass (parse s.rxbuf s.role) s [] = .ok (.done s [] st')) :
      execSubmit [] s = .next (s.respond (.payloads []) st') :=
    execSubmit_of_done [] s s [] st' hf hfits (by rwa [List.append_nil, State.setRxbuf_self])
  cases h with
  | latched c hf => exact execSubmit_latched [] s c hf
  | incomplete hf hp => exact of_pass hf (by rw [hp]; rfl)
  | blocked hf hp => exact of_pass hf (by rw [hp]; rfl)
  | waits hf h n key hp hfit hlt hlen hkey =>
    exact of_pass hf (by rw [hp, runPass_waits h n key s [] hfit hlt, State.recordParsed_self hlen hkey])

/-- At rest with no fault latched the status is that of PHASE (R158). -/
theorem State.Rests.status_eq {s : State} {st : Status} (h : s.Rests st) (hf : s.rxFault = none) :
    st = if s.phase = some .blockedLength then .unsupportedLengthScheme else .ok := by
  cases h with
  | latched c hc => rw [hc] at hf; cases hf
  | blocked _ hp => exact (if_pos (s.phase_blockedLength_iff.2 ⟨hf, hp⟩)).symm
  | incomplete _ hp | waits _ _ _ _ hp =>
    refine (if_neg fun hblocked => ?_).symm
    rw [(s.phase_blockedLength_iff.1 hblocked).2] at hp
    cases hp

/-- Settles O39: the invariant leaves the receiver at rest, where an empty chunk repeats the status of PHASE. -/
theorem emptySubmitChangesNothing : Obligations.EmptySubmitChangesNothing := by
  intro s hs hall hf
  obtain ⟨st, hrests⟩ := hs.rests hall hf
  rw [← hrests.status_eq hf]
  exact execSubmit_nil_of_rests hrests hs.bufferFits

/-! ## Part of one frame (R147, R152) -/

/-- A front of a valid frame is INCOMPLETE or shows the frame's own length (R133). -/
theorem parse_prefix {role : Role} {w f payload : Bytes} (hcarries : carries role f payload) (hpre : w <+: f) :
    parse w role = .incomplete ∨ ∃ h n key, parse w role = .parsed h n key ∧ f.length = h + n.toNat := by
  obtain ⟨h, n, key, hp, hlen, -⟩ := hcarries
  obtain ⟨x, rfl⟩ := hpre
  by_cases hinc : parse w role = .incomplete
  · exact .inl hinc
  · exact .inr ⟨h, n, key, (parse_append w x role hinc).symm.trans hp, hlen⟩

/-- With part of one valid frame in RXBUF the pass ends with no payload and keeps every byte; where RX_BUF_CAP allows
the frame it waits (R144, R147). -/
theorem runPass_strictPrefix {f payload : Bytes} (s : State) (out : List Bytes)
    (hcarries : carries s.role f payload) (hpre : s.rxbuf <+: f) (hlt : s.rxbuf.length < f.length) :
    ∃ t st, runPass (parse s.rxbuf s.role) s out = .ok (.done t out st) ∧ t.rxbuf = s.rxbuf ∧
      (f.length ≤ s.params.rxBufCap → st = .ok ∧ t.rxFault = s.rxFault) := by
  obtain hp | ⟨h, n, key, hp, hlen⟩ := parse_prefix hcarries hpre
  · rw [hp]
    exact ⟨_, _, rfl, rfl, fun _ => ⟨rfl, rfl⟩⟩
  rw [hp, hlen]
  by_cases hfit : h + n.toNat ≤ s.params.rxBufCap
  · exact ⟨_, _, runPass_waits h n key s out hfit (hlen ▸ hlt), rfl, fun _ => ⟨rfl, rfl⟩⟩
  · exact ⟨_, _, runPass_tooLarge h n key s out (Nat.lt_of_not_le hfit), rfl, fun hfit' => absurd hfit' hfit⟩

/-- SUBMIT that leaves RXBUF with part of one valid frame gives no payload, and latches or keeps every byte. -/
theorem execSubmit_strictPrefix {f payload : Bytes} (chunk : Bytes) (s : State) (hf : s.rxFault = none)
    (hcarries : carries s.role f payload) (hpre : s.rxbuf ++ chunk <+: f)
    (hlt : (s.rxbuf ++ chunk).length < f.length) :
    ∃ t st, execSubmit chunk s = .next t ∧ t.response = some ⟨.payloads [], st⟩ ∧
      (t.rxFault = none → t.rxbuf = s.rxbuf ++ chunk) := by
  by_cases hc : s.rxbuf.length + chunk.length ≤ s.params.rxBufCap
  · obtain ⟨t, st, hpass, hbuf, -⟩ := runPass_strictPrefix (s.setRxbuf (s.rxbuf ++ chunk)) [] hcarries hpre hlt
    exact ⟨_, st, execSubmit_of_done chunk s t [] st hf hc hpass, rfl, fun _ => hbuf⟩
  · exact ⟨_, _, execSubmit_overflow chunk s hf (Nat.lt_of_not_le hc), rfl, nofun⟩

/-- The first chunk's answer, then that of the others. -/
theorem submitAll_cons {chunk : Bytes} {chunks : List Bytes} {s t u : State} {ps qs : List Bytes} {st : Status}
    {statuses : List Status} (hfirst : execSubmit chunk s = .next t) (hresp : t.response = some ⟨.payloads ps, st⟩)
    (hrest : submitAll chunks t = some (u, qs, statuses)) :
    submitAll (chunk :: chunks) s = some (u, ps ++ qs, st :: statuses) := by
  simp only [submitAll, exec, hfirst, hresp, hrest]

/-- A latched receiver gives no payload, whatever is submitted (R142). -/
theorem submitAll_latched (chunks : List Bytes) (s : State) (c : RxFault) (hf : s.rxFault = some c) :
    ∃ u statuses, submitAll chunks s = some (u, [], statuses) := by
  induction chunks generalizing s with
  | nil => exact ⟨s, [], rfl⟩
  | cons chunk chunks ih =>
    obtain ⟨u, statuses, hrest⟩ := ih (latchedAnswer c s) hf
    exact ⟨u, _, submitAll_cons (execSubmit_latched chunk s c hf) rfl hrest⟩

/-- Chunks that go on with part of one valid frame, and do not complete it, give no payload. -/
theorem submitAll_strictPrefix {f payload : Bytes} (chunks : List Bytes) (s : State) (hf : s.rxFault = none)
    (hcarries : carries s.role f payload) (hpre : s.rxbuf ++ chunks.flatten <+: f)
    (hlt : (s.rxbuf ++ chunks.flatten).length < f.length) :
    ∃ u statuses, submitAll chunks s = some (u, [], statuses) := by
  induction chunks generalizing s with
  | nil => exact ⟨s, [], rfl⟩
  | cons chunk chunks ih =>
    rw [List.flatten_cons, ← List.append_assoc] at hpre hlt
    have hfront : s.rxbuf ++ chunk <+: s.rxbuf ++ chunk ++ chunks.flatten := List.prefix_append _ _
    obtain ⟨t, st, hfirst, hresp, hbuf⟩ :=
      execSubmit_strictPrefix chunk s hf hcarries (hfront.trans hpre) (hfront.length_le.trans_lt hlt)
    have hrole : t.role = s.role := (congrArg State.role (execSubmit_frame chunk s t hfirst) :)
    obtain ⟨u, statuses, hrest⟩ : ∃ u statuses, submitAll chunks t = some (u, [], statuses) := by
      cases hft : t.rxFault with
      | some c => exact submitAll_latched chunks t c hft
      | none => exact ih t hft (hrole ▸ hcarries) (hbuf hft ▸ hpre) (hbuf hft ▸ hlt)
    exact ⟨u, _, submitAll_cons hfirst hresp hrest⟩

/-- Settles O41: every SUBMIT leaves RXBUF with part of the frame, or latches. -/
theorem noPayloadBeforeTheLastByte : Obligations.NoPayloadBeforeTheLastByte := by
  intro s f payload chunks hf hbuf hcarries hpre hne
  have hlt : chunks.flatten.length < f.length :=
    lt_of_le_of_ne hpre.length_le fun heq => hne (hpre.eq_of_length heq)
  exact submitAll_strictPrefix chunks s hf hcarries (by rwa [hbuf]) (by rwa [hbuf])

/-! ## A stream of valid frames (R151) -/

/-- The bytes of a list of frames, each with its payload. -/
def stream (frames : List (Bytes × Bytes)) : Bytes := (frames.map Prod.fst).flatten

@[simp] theorem stream_nil : stream [] = [] := rfl
@[simp] theorem stream_cons (f : Bytes × Bytes) (frames : List (Bytes × Bytes)) :
    stream (f :: frames) = f.1 ++ stream frames := rfl

@[simp] theorem stream_append (frames frames' : List (Bytes × Bytes)) :
    stream (frames ++ frames') = stream frames ++ stream frames' := by
  simp [stream]

/-- `r` is a front of the stream of these frames that ends before the first of them does. -/
def EndsInFirst : List (Bytes × Bytes) → Bytes → Prop
  | [], r => r = []
  | f :: _, r => r <+: f.1 ∧ r.length < f.1.length

/-- A valid frame has bytes. -/
theorem carries_length_pos {role : Role} {f payload : Bytes} (hcarries : carries role f payload) : 0 < f.length := by
  obtain ⟨h, n, key, hp, hlen, -⟩ := hcarries
  have := (parse_parsed_bounds f role h n key hp).1
  omega

/-- Before its first byte a stream of valid frames has no frame. -/
theorem endsInFirst_nil {role : Role} {frames : List (Bytes × Bytes)} (hcarries : ∀ f ∈ frames, carries role f.1 f.2) :
    EndsInFirst frames [] :=
  match frames with
  | [] => rfl
  | f :: _ => ⟨List.nil_prefix, carries_length_pos (hcarries f (List.mem_cons_self ..))⟩

/-- Under ALL the pass takes a valid frame that RX_BUF_CAP allows off the front, gives its payload and goes on
(R145). -/
theorem runPass_frontFrame {f payload r : Bytes} (s : State) (hall : s.params.drainPolicy = .all)
    (hcarries : carries s.role f payload) (hfit : f.length ≤ s.params.rxBufCap) (hbuf : s.rxbuf = f ++ r) :
    ∃ n key, runPass (parse s.rxbuf s.role) s [] = .ok (.again ((s.recordParsed n key).setRxbuf r) [payload]) := by
  obtain ⟨h, n, key, hp, hlen, rfl⟩ := hcarries
  have hparse : parse s.rxbuf s.role = .parsed h n key := by rw [hbuf, parse_append f r _ (by simp [hp]), hp]
  have hle : h + n.toNat ≤ s.rxbuf.length := by rw [hbuf, ← hlen, List.length_append]; omega
  have hpayload : (s.rxbuf.drop h).take n.toNat = f.drop h := by
    rw [hbuf, List.drop_append_of_le_length (by omega), List.take_left' (by rw [List.length_drop]; omega)]
  have hrest : s.rxbuf.drop (h + n.toNat) = r := by rw [hbuf, List.drop_left' hlen]
  refine ⟨n, key, ?_⟩
  rw [hparse, runPass_whole h n key s [] (hlen ▸ hfit) hle, extractFrame_ok _ _ _ (s.recordParsed n key) _ hle,
    State.recordParsed_params, hall, State.recordParsed_rxbuf, hpayload, hrest]
  rfl

/-- After a pass that goes on, the loop's answer is that pass's payloads and then those of the passes left. -/
theorem drain_of_again {k : Nat} {s t u : State} {out qs : List Bytes} {st : Status}
    (hp : runPass (parse s.rxbuf s.role) s [] = .ok (.again t out)) (hd : drain k t [] = .ok (u, qs, st)) :
    drain (k + 1) s [] = .ok (u, out ++ qs, st) := by
  simp only [drain, hp]
  rw [drain_out, hd]

/-- Under ALL the loop, over a front of a stream of valid frames, takes out the frames that are all there, gives their
payloads, and waits with the bytes of the next. -/
theorem drain_stream (frames : List (Bytes × Bytes)) (s : State) (hall : s.params.drainPolicy = .all)
    (hcarries : ∀ f ∈ frames, carries s.role f.1 f.2) (hfit : ∀ f ∈ frames, f.1.length ≤ s.params.rxBufCap)
    (hpre : s.rxbuf <+: stream frames) :
    ∃ whole rest k u, frames = whole ++ rest ∧ drain k s [] = .ok (u, whole.map Prod.snd, .ok) ∧
      u.rxFault = s.rxFault ∧ s.rxbuf = stream whole ++ u.rxbuf ∧ EndsInFirst rest u.rxbuf := by
  induction frames generalizing s with
  | nil =>
    have hbuf : s.rxbuf = [] := List.prefix_nil.1 hpre
    exact ⟨[], [], 1, s, rfl, drain_empty 0 s [] hbuf, rfl, rfl, hbuf⟩
  | cons f frames ih =>
    obtain ⟨hf, hframes⟩ := List.forall_mem_cons.1 hcarries
    obtain ⟨hfitf, hfits⟩ := List.forall_mem_cons.1 hfit
    have hfpre : f.1 <+: stream (f :: frames) := List.prefix_append _ _
    by_cases hlt : s.rxbuf.length < f.1.length
    · have hpart : s.rxbuf <+: f.1 := List.prefix_of_prefix_length_le hpre hfpre hlt.le
      obtain ⟨t, st, hpass, hbuf, hwaits⟩ := runPass_strictPrefix s [] hf hpart hlt
      obtain ⟨rfl, hfault⟩ := hwaits hfitf
      refine ⟨[], f :: frames, 1, t, rfl, by simp [drain, hpass], hfault, hbuf.symm, ?_⟩
      rw [hbuf]
      exact ⟨hpart, hlt⟩
    · obtain ⟨r, hr⟩ := List.prefix_of_prefix_length_le hfpre hpre (Nat.not_lt.1 hlt)
      obtain ⟨n, key, hpass⟩ := runPass_frontFrame s hall hf hfitf hr.symm
      rw [← hr, stream_cons, List.prefix_append_right_inj] at hpre
      obtain ⟨whole, rest, k, u, rfl, hdrain, hfault, hbuf, hends⟩ :=
        ih ((s.recordParsed n key).setRxbuf r) hall hframes hfits hpre
      refine ⟨f :: whole, rest, k + 1, u, rfl, drain_of_again hpass hdrain, hfault, ?_, hends⟩
      rw [← hr, stream_cons, List.append_assoc]
      exact congrArg (f.1 ++ ·) hbuf

/-- Under ALL a SUBMIT that fits, over a front of a stream of valid frames, answers OK with the payloads of the frames
that are all there. -/
theorem execSubmit_stream (frames : List (Bytes × Bytes)) (chunk : Bytes) (s : State)
    (hall : s.params.drainPolicy = .all) (hf : s.rxFault = none) (hcarries : ∀ f ∈ frames, carries s.role f.1 f.2)
    (hfit : ∀ f ∈ frames, f.1.length ≤ s.params.rxBufCap)
    (hc : s.rxbuf.length + chunk.length ≤ s.params.rxBufCap) (hpre : s.rxbuf ++ chunk <+: stream frames) :
    ∃ whole rest t, frames = whole ++ rest ∧ execSubmit chunk s = .next t ∧
      t.response = some ⟨.payloads (whole.map Prod.snd), .ok⟩ ∧ t.rxFault = none ∧
      s.rxbuf ++ chunk = stream whole ++ t.rxbuf ∧ EndsInFirst rest t.rxbuf := by
  obtain ⟨whole, rest, k, u, hsplit, hdrain, hfault, hbuf, hends⟩ :=
    drain_stream frames (s.setRxbuf (s.rxbuf ++ chunk)) hall hcarries hfit hpre
  exact ⟨whole, rest, _, hsplit, execSubmit_fits chunk s k _ hf hc hdrain, rfl, hfault.trans hf, hbuf, hends⟩

/-- A frame is no longer than a stream it is in. -/
theorem length_le_stream {f : Bytes × Bytes} {frames : List (Bytes × Bytes)} (h : f ∈ frames) :
    f.1.length ≤ (stream frames).length :=
  (List.sublist_flatten_of_mem (List.mem_map_of_mem h)).length_le

/-- Under ALL and with room for the stream, chunks that go on with a stream of valid frames give the payloads of the
frames that they complete, each once, with every status OK. -/
theorem submitAll_stream (chunks : List Bytes) (frames : List (Bytes × Bytes)) (s : State)
    (hall : s.params.drainPolicy = .all) (hf : s.rxFault = none) (hcarries : ∀ f ∈ frames, carries s.role f.1 f.2)
    (hroom : (stream frames).length ≤ s.params.rxBufCap) (hends : EndsInFirst frames s.rxbuf)
    (hpre : s.rxbuf ++ chunks.flatten <+: stream frames) :
    ∃ whole rest u statuses, frames = whole ++ rest ∧
      submitAll chunks s = some (u, whole.map Prod.snd, statuses) ∧ (∀ st ∈ statuses, st = .ok) ∧ u.rxFault = none ∧
      s.rxbuf ++ chunks.flatten = stream whole ++ u.rxbuf ∧ EndsInFirst rest u.rxbuf := by
  induction chunks generalizing frames s with
  | nil => exact ⟨[], frames, s, [], rfl, rfl, nofun, hf, List.append_nil _, hends⟩
  | cons chunk chunks ih =>
    rw [List.flatten_cons, ← List.append_assoc] at hpre ⊢
    have hfront : s.rxbuf ++ chunk <+: stream frames := (List.prefix_append _ _).trans hpre
    have hc : s.rxbuf.length + chunk.length ≤ s.params.rxBufCap := by
      rw [← List.length_append]
      exact hfront.length_le.trans hroom
    obtain ⟨whole, rest, t, rfl, hfirst, hresp, hft, hbuf, hends'⟩ :=
      execSubmit_stream frames chunk s hall hf hcarries (fun _ h => (length_le_stream h).trans hroom) hc hfront
    have frame := execSubmit_frame chunk s t hfirst
    have hrole : t.role = s.role := (congrArg State.role frame :)
    have hparams : t.params = s.params := (congrArg State.params frame :)
    rw [hbuf, stream_append, List.append_assoc, List.prefix_append_right_inj] at hpre
    rw [stream_append, List.length_append] at hroom
    obtain ⟨whole', rest', u, statuses, rfl, hrest, hok, hfu, hbuf', hends''⟩ :=
      ih rest t (hparams ▸ hall) hft (fun f h => hrole ▸ hcarries f (List.mem_append_right whole h))
        (by rw [hparams]; omega) hends' hpre
    refine ⟨whole ++ whole', rest', u, _, (List.append_assoc ..).symm, ?_, List.forall_mem_cons.2 ⟨rfl, hok⟩, hfu, ?_,
      hends''⟩
    · rw [List.map_append]
      exact submitAll_cons hfirst hresp hrest
    · rw [hbuf, stream_append, List.append_assoc, List.append_assoc, hbuf']

/-- Settles O40: k counts the frames that the chunks complete; the bytes behind them are part of the next. -/
theorem reassemblyIgnoresTheCuts : Obligations.ReassemblyIgnoresTheCuts := by
  intro s frames chunks hall hf hbuf hcarries hroom hpre
  have hends : EndsInFirst frames s.rxbuf := hbuf ▸ endsInFirst_nil hcarries
  have hpre' : s.rxbuf ++ chunks.flatten <+: stream frames := by rwa [hbuf]
  obtain ⟨whole, rest, u, statuses, rfl, hrun, hok, hfu, hbytes, hrest⟩ :=
    submitAll_stream chunks frames s hall hf hcarries hroom hends hpre'
  rw [hbuf, List.nil_append] at hbytes
  refine ⟨whole.length, u, statuses, by simp, ?_, fun hlt => ?_, ?_, hok, hfu, ?_⟩
  · rw [List.take_left, hbytes, List.length_append]
    exact Nat.le_add_right _ _
  · cases rest with
    | nil => simp at hlt
    | cons f rest =>
      have hnext : (whole ++ f :: rest).take (whole.length + 1) = whole ++ [f] := by simp [List.take_append]
      have hstream : ((whole ++ [f]).map Prod.fst).flatten = stream whole ++ f.1 := by simp [stream]
      rw [hnext, hstream, hbytes, List.length_append, List.length_append]
      exact Nat.add_lt_add_left hrest.2 _
  · rw [List.take_left]
    exact hrun
  · rw [List.take_left, hbytes]
    exact List.drop_left.symm

end Sys2Proof.Machine

/-! ## The diagnostic reads (R170, R171, R172) -/

namespace Sys2Proof.Machine

/-- READ_TX_KEY answers LAST_TX_KEY and writes no register (R170). -/
theorem exec_readTxKey (s : State) : exec .readTxKey s = .next (s.respond (.txKey s.lastTxKey) .ok) := rfl

/-- READ_RX_LAST answers LAST_RX_LEN and LAST_RX_KEY and writes no register (R171). -/
theorem exec_readRxLast (s : State) :
    exec .readRxLast s = .next (s.respond (.rxLast s.lastRxLen s.lastRxKey) .ok) := rfl

/-- Settles O43: neither read checks PHASE, and a response is the only field that it writes. -/
theorem readsAnswerTheRegisters : Obligations.ReadsAnswerTheRegisters :=
  fun s => ⟨exec_readTxKey s, exec_readRxLast s⟩

end Sys2Proof.Machine

/-! ## The statuses that each command can return (R180, R185) -/

namespace Sys2Proof.Machine

/-- The statuses that R180 allows the receiver: INCOMPLETE is for PARSE_HEADER and REFUSED for the reserved code. -/
def Status.FromReceiver (st : Status) : Prop := st ≠ .incomplete ∧ st ≠ .refused

/-- An INVALID front has one of the FRAMING_ statuses (R135). -/
theorem FramingReason.status_framing (reason : FramingReason) :
    reason.status = .framingFinClear ∨ reason.status = .framingBadOpcode ∨ reason.status = .framingMaskMismatch := by
  cases reason with
  | finClear => exact .inl rfl
  | badOpcode => exact .inr (.inl rfl)
  | maskMismatch => exact .inr (.inr rfl)

theorem FramingReason.status_fromReceiver (reason : FramingReason) : reason.status.FromReceiver := by
  obtain h | h | h := reason.status_framing <;> rw [h] <;> exact ⟨nofun, nofun⟩

theorem RxFault.status_fromReceiver (c : RxFault) : c.status.FromReceiver := by
  cases c with
  | framing reason => exact reason.status_fromReceiver
  | payloadTooLarge => exact ⟨nofun, nofun⟩

/-- The parser alone finds no frame too large and refuses nothing (R135). -/
theorem ParseOutcome.status_ne (r : ParseOutcome) : r.status ≠ .payloadTooLarge ∧ r.status ≠ .refused := by
  cases r with
  | invalid reason =>
    obtain h | h | h := reason.status_framing <;> rw [ParseOutcome.status, h] <;> exact ⟨nofun, nofun⟩
  | incomplete | unsupportedLength | parsed => exact ⟨nofun, nofun⟩

/-- A pass that waits for more bytes ends the loop with OK, not INCOMPLETE (R147, R185). -/
theorem PassEnds.status_fromReceiver {r : ParseOutcome} {s t : State} {st : Status} (h : PassEnds r s t st) :
    st.FromReceiver := by
  cases h with
  | invalid reason => exact reason.status_fromReceiver
  | incomplete | unsupportedLength | tooLarge | waits | extracts => exact ⟨nofun, nofun⟩

/-- The loop's status is that of the pass that ends it. -/
theorem drain_status_fromReceiver (k : Nat) (s t : State) (out out' : List Bytes) (st : Status)
    (h : drain k s out = .ok (t, out', st)) : st.FromReceiver := by
  induction k generalizing s out with
  | zero => cases h
  | succ k ih =>
    unfold drain at h
    split at h
    · cases h
    · rename_i hp
      cases h
      exact (runPass_done _ _ _ _ _ _ hp).status_fromReceiver
    · exact ih _ _ h

/-- SUBMIT answers a status of the receiver: the latched code, PAYLOAD_TOO_LARGE, or its loop's. -/
theorem execSubmit_answers (chunk : Bytes) (s : State) : ∃ (t : State) (r : Response),
    execSubmit chunk s = .next t ∧ t.response = some r ∧ r.status.FromReceiver := by
  obtain ⟨t, ht⟩ := execSubmit_completes chunk s
  obtain ⟨c, -, rfl⟩ | ⟨-, -, rfl⟩ | ⟨-, -, k, u, out, st, hd, rfl⟩ := execSubmit_cases chunk s t ht
  · exact ⟨_, _, ht, rfl, c.status_fromReceiver⟩
  · exact ⟨_, _, ht, rfl, nofun, nofun⟩
  · exact ⟨_, _, ht, rfl, drain_status_fromReceiver k _ u [] out st hd⟩

/-- A header, run as an instruction, answers a status of the receiver: the latched code, its pass's, or OK where the
loop would go on (log 8). -/
theorem receiveHeader_answers (r : ParseOutcome) (s : State) : ∃ (t : State) (answer : Response),
    receiveHeader r s = .next t ∧ t.response = some answer ∧ answer.status.FromReceiver := by
  cases hf : s.rxFault with
  | some c => exact ⟨_, _, receiveHeader_latched r s c hf, rfl, c.status_fromReceiver⟩
  | none =>
    cases hp : runPass r s [] with
    | error f => exact absurd hp (runPass_ne_error r s [] f)
    | ok p =>
      cases p with
      | done t out st =>
        exact ⟨_, _, receiveHeader_of_done hf hp, rfl, (runPass_done r s t [] out st hp).status_fromReceiver⟩
      | again t out => exact ⟨_, _, receiveHeader_of_again hf hp, rfl, nofun, nofun⟩

/-- A header class answers a status of the receiver, by its pass. -/
theorem exec_header_answers (i : Instr) (s : State) (hi : i.isHeader = true) : ∃ (t : State) (r : Response),
    exec i s = .next t ∧ t.response = some r ∧ r.status.FromReceiver := by
  obtain ⟨outcome, houtcome⟩ := exec_header i hi
  rw [houtcome]
  exact receiveHeader_answers outcome s

/-- WRAP answers OK or, for a payload that is too long, UNSUPPORTED_LENGTH_SCHEME (R101, R182). -/
theorem exec_wrap_answers (payload : Bytes) (s : State) : ∃ (t : State) (r : Response),
    exec (.wrap payload) s = .next t ∧ t.response = some r ∧
      (r.status = .ok ∨ r.status = .unsupportedLengthScheme) := by
  obtain hlen | hlen := Nat.lt_or_ge payload.length 65536
  · exact ⟨_, _, exec_wrap_ok payload s hlen, rfl, .inl rfl⟩
  · exact ⟨_, _, exec_wrap_tooLong payload s hlen, rfl, .inr rfl⟩

/-- Settles O50: SUBMIT and the headers by what the receiver can answer, WRAP by its length check, PARSE_HEADER by the
outcome's status, and every other command by the one status it has. -/
theorem statusesEachCommandReturns : Obligations.StatusesEachCommandReturns := by
  refine ⟨⟨rfl, rfl, rfl, rfl, rfl, rfl, rfl, rfl⟩, fun i s => ?_⟩
  cases i
  case submit chunk => exact execSubmit_answers chunk s
  case wrap payload => exact exec_wrap_answers payload s
  case parseHeader window => exact ⟨_, _, rfl, rfl, (parse window s.role).status_ne⟩
  case reset | maskApply | readTxKey | readRxLast | reserved => exact ⟨_, _, rfl, rfl, rfl⟩
  -- the ten header classes
  all_goals exact exec_header_answers _ s rfl

end Sys2Proof.Machine

/-! ## A buffer sized for the longest frame and one chunk (R8, R217) -/

namespace Sys2Proof.Machine

/-- A valid frame has at most 8 header bytes and 65535 payload bytes (R8). -/
theorem carries_length_le {role : Role} {f payload : Bytes} (hcarries : carries role f payload) : f.length ≤ 65543 := by
  obtain ⟨h, n, key, hp, hlen, -⟩ := hcarries
  obtain ⟨-, hh, -, hn⟩ := parse_parsed_bounds f role h n key hp
  omega

/-- What waits of a valid frame is at least one byte short of the longest one. -/
theorem EndsInFirst.length_le {role : Role} {frames : List (Bytes × Bytes)} {r : Bytes} (hends : EndsInFirst frames r)
    (hcarries : ∀ f ∈ frames, carries role f.1 f.2) : r.length ≤ 65542 := by
  cases frames with
  | nil => rw [show r = [] from hends]; exact Nat.zero_le _
  | cons f frames =>
    have hlong := carries_length_le (hcarries f (List.mem_cons_self ..))
    have hshort : r.length < f.1.length := hends.2
    omega

/-- Under ALL, with room for the waiting bytes and one chunk, the chunks of a stream of valid frames, however long, are
all answered OK and leave at most 65542 bytes. -/
theorem submitAll_stream_sized {maxChunk : Nat} (chunks : List Bytes) (frames : List (Bytes × Bytes)) (s : State)
    (hall : s.params.drainPolicy = .all) (hf : s.rxFault = none) (hcap : 65542 + maxChunk ≤ s.params.rxBufCap)
    (hcarries : ∀ f ∈ frames, carries s.role f.1 f.2) (hfit : ∀ f ∈ frames, f.1.length ≤ s.params.rxBufCap)
    (hsize : ∀ c ∈ chunks, c.length ≤ maxChunk) (hends : EndsInFirst frames s.rxbuf)
    (hpre : s.rxbuf ++ chunks.flatten <+: stream frames) :
    ∃ u ps statuses, submitAll chunks s = some (u, ps, statuses) ∧ (∀ st ∈ statuses, st = .ok) ∧
      u.rxbuf.length ≤ 65542 := by
  induction chunks generalizing frames s with
  | nil => exact ⟨s, [], [], rfl, nofun, hends.length_le hcarries⟩
  | cons chunk chunks ih =>
    have hwait : s.rxbuf.length ≤ 65542 := hends.length_le hcarries
    obtain ⟨hchunk, hchunks⟩ := List.forall_mem_cons.1 hsize
    rw [List.flatten_cons, ← List.append_assoc] at hpre
    obtain ⟨whole, rest, t, rfl, hfirst, hresp, hft, hbuf, hends'⟩ :=
      execSubmit_stream frames chunk s hall hf hcarries hfit (by omega) ((List.prefix_append _ _).trans hpre)
    have frame := execSubmit_frame chunk s t hfirst
    have hrole : t.role = s.role := (congrArg State.role frame :)
    have hparams : t.params = s.params := (congrArg State.params frame :)
    rw [hbuf, stream_append, List.append_assoc, List.prefix_append_right_inj] at hpre
    rw [← hrole] at hcarries
    rw [← hparams] at hall hcap hfit
    obtain ⟨u, ps, statuses, hrest, hok, hlen⟩ :=
      ih rest t hall hft hcap (fun f h => hcarries f (List.mem_append_right whole h))
        (fun f h => hfit f (List.mem_append_right whole h)) hchunks hends' hpre
    exact ⟨u, _, _, submitAll_cons hfirst hresp hrest, List.forall_mem_cons.2 ⟨rfl, hok⟩, hlen⟩

/-- Settles O42: at most 65542 bytes wait for the rest of their frame, so one more chunk fits. Where MAX_CHUNK is 0 the
longest frame may not fit, but then no byte of the stream is ever sent. -/
theorem sizedBufferNeverOverflows : Obligations.SizedBufferNeverOverflows := by
  intro p role maxChunk frames chunks hall hcap hcarries hsize hpre
  obtain rfl | hpos := maxChunk.eq_zero_or_pos
  · have hnone : chunks.flatten = [] :=
      List.flatten_eq_nil_iff.2 fun c hc => List.eq_nil_of_length_eq_zero (Nat.le_zero.1 (hsize c hc))
    exact submitAll_stream_sized chunks [] (.resetWith p role) hall rfl hcap nofun nofun hsize rfl
      (List.prefix_nil.2 hnone)
  · have hfit : ∀ f ∈ frames, f.1.length ≤ p.rxBufCap := fun f hf => by
      have hlong := carries_length_le (hcarries f hf)
      omega
    exact submitAll_stream_sized chunks frames (.resetWith p role) hall rfl hcap hcarries hfit hsize
      (endsInFirst_nil hcarries) hpre

end Sys2Proof.Machine

/-! ## RESET and the start state (R210, R211) -/

namespace Sys2Proof.Machine

/-- RESET writes the six registers, answers OK, and keeps everything else (R210). -/
theorem exec_reset (role : Role) (s : State) :
    exec (.reset role) s = .next { s with
      role := role, rxbuf := [], rxFault := none, lastTxKey := none, lastRxLen := none, lastRxKey := none,
      response := some ⟨.empty, .ok⟩ } := rfl

/-- Settles O1: with no fault and an empty RXBUF the PHASE is WAIT_HEADER, and what RESET writes does not depend on
what it finds. -/
theorem resetSetsEveryRegister : Obligations.ResetSetsEveryRegister :=
  fun role s => ⟨_, exec_reset role s, rfl, State.phase_waitHeader _ rfl rfl, exec_reset role _⟩

/-- Settles O2: the start state has the values that RESET writes, and RESET keeps the parameters. -/
theorem instanceStartsAsResetLeavesIt : Obligations.InstanceStartsAsResetLeavesIt :=
  ⟨fun _ role s hparams => ⟨_, exec_reset role s, rfl, rfl, rfl, rfl, rfl, rfl, hparams.symm⟩, rfl⟩

/-- The start state meets the invariant, for all parameters and both roles. -/
theorem State.resetWith_inv (p : Params) (role : Role) : (State.resetWith p role).Inv :=
  .of_cleared _ rfl rfl rfl rfl rfl

/-- Settles O52: State.reset is one of the start states. -/
theorem resetHasInv : Obligations.ResetHasInv :=
  ⟨State.resetWith_inv, State.resetWith_inv Config.params .nonMasking⟩

end Sys2Proof.Machine
